-- ==== Sys2Proof/Word.lean ====
section
/-! DEFINITION. The two word types of the block: the byte (WORD_W = 8, R4) and the 16-bit word of the host and
transport ports (R50, R57). -/

namespace Sys2Proof

/-- One bus word, one frame byte, one CRC value (R4, R5). -/
abbrev Byte := BitVec 8

/-- A host command word, a host response word or a transport request word (R50, R52, R57). -/
abbrev Word16 := BitVec 16

end Sys2Proof
end

