-- ==== Sys2Proof/Config.lean ====
section
/-! DEFINITION. What a build of the block fixes (the OPEN parameters of R4), what the environment can do at a step
(R8), and the free values: opaque constants, so that nothing can be proved of what the environment replies. -/

namespace Sys2Proof

/-- DISCIPLINE (R4): "selected per deployment, not mixed within one build". -/
inductive Discipline where
  | polling
  | interrupt
deriving DecidableEq, Repr, Inhabited

/-- MODE, the half-duplex channel mode (R4). -/
inductive ChannelMode where
  | txrx
  | rxOnly
deriving DecidableEq, Repr, Inhabited

/-- The two interrupt sources, TX_EMPTY (source 0) and RX_FULL (source 1) (R58). -/
inductive Source where
  | txEmpty
  | rxFull
deriving DecidableEq, Repr, Inhabited

/-- One command's entry of CMD (R4): the byte sent, if any, the response length with the CRC byte, the settle delay. -/
structure Descriptor where
  code   : Option Byte
  rlen   : Nat
  settle : Nat
deriving DecidableEq, Repr, Inhabited

/-- The configuration cfg of a model instance (R4): the tuple of all OPEN parameters. CMD is a finite map, held as a
list of pairs in which the first entry of an id counts (log 20). -/
structure Config where
  frameCap      : Nat
  cmd           : List (Byte × Descriptor)
  placeholder   : Byte
  discipline    : Discipline
  mode          : ChannelMode
  channel       : Nat
  waitLimit     : Option Nat
  finalReadPoll : Bool
  tickW         : Nat
deriving DecidableEq, Repr, Inhabited

/-- Which of the five agents of R8 moves at a step, and with what: the processor (sequencer, or handler while a
handler run is in progress), the transport delivering an interrupt, the delay service answering *done*, the host
presenting a command word, the host asserting reset (log 1). -/
inductive Turn where
  | run
  | interrupt
  | delayDone
  | present (w : Word16)
  | reset
deriving DecidableEq, Repr, Inhabited

/-- FREE VALUE (log 2): the build of the instance whose reset state is `State.reset`. R4 leaves every parameter open. -/
opaque Config.build : Config

/-- FREE VALUE (log 1): the transport's reply to the n-th request that finds no reply in `State.replies` (R130, U13,
U14, U15, U18: "any value"). -/
opaque Config.freeReply : Nat → Byte

/-- FREE VALUE (log 1): the agent that moves at the n-th step that finds no turn in `State.turns` (U16). -/
opaque Config.freeTurn : Nat → Turn

end Sys2Proof
end

