-- ==== Sys2Proof/Syntax.lean ====
section
/-! DEFINITION. The instructions: one constructor for each of the 23 rows of spec/opcode_table.json. -/

namespace Sys2Proof

/-- The operations of the block's three ports: eight host operations (format H, R53), fourteen transport requests
(format P, R57), one delay request (format D, R59). -/
inductive Instr where
  | setup
  | capture (a : Byte)
  | rdframe (a : Byte)
  | rdlen
  | rdrxcrc
  | rdccrc
  | rderr
  | clrerr
  | tEnable
  | tDisable
  | tAssertSelect
  | tDeassertSelect
  | tSetWordCount (n : Byte)
  | tSetFifoTriggerLevel (n : Byte)
  | tTransmit (b : Byte)
  | tReceive
  | tTransferComplete
  | tInterruptStatus
  | tEnableInterrupt (src : Source)
  | tDisableInterrupt (src : Source)
  | tClearInterrupt (src : Source)
  | tConfigure (mode : ChannelMode) (fifo : Bool)
  | dWaitTicks (n : Nat)
deriving DecidableEq, Repr

end Sys2Proof
end

