-- ==== Sys2Proof/WellFormed.lean ====
section
/-! DEFINITION. Which instructions are well formed for a build: the argument ranges the spec gives the port
operations. A host operation is well formed whatever its operand byte (R51, R55: an unknown id or a far address is
"well-formed" and refused by the operation itself). -/

namespace Sys2Proof

/-- The argument of a request is in the range the spec gives: a word count or trigger level is a frame length
(R135 "2 <= n <= FRAME_CAP", R136 "always F.length"), a tick count has TICK_W bits (R145). -/
def Instr.wellFormed (cfg : Config) : Instr → Bool
  | .tSetWordCount n => decide (2 ≤ n.toNat) && decide (n.toNat ≤ cfg.frameCap)
  | .tSetFifoTriggerLevel n => decide (2 ≤ n.toNat) && decide (n.toNat ≤ cfg.frameCap)
  | .dWaitTicks n => decide (n < 2 ^ cfg.tickW)
  | .setup => true
  | .capture _ => true
  | .rdframe _ => true
  | .rdlen => true
  | .rdrxcrc => true
  | .rdccrc => true
  | .rderr => true
  | .clrerr => true
  | .tEnable => true
  | .tDisable => true
  | .tAssertSelect => true
  | .tDeassertSelect => true
  | .tTransmit _ => true
  | .tReceive => true
  | .tTransferComplete => true
  | .tInterruptStatus => true
  | .tEnableInterrupt _ => true
  | .tDisableInterrupt _ => true
  | .tClearInterrupt _ => true
  | .tConfigure _ _ => true

end Sys2Proof
end

