-- ==== Sys2Proof/Decode.lean ====
section
/-! DEFINITION. The decoder of the three ports (R50, R53, R55, R57, R58, R59), total, each rejection by name; then the
encoder, written from the same tables. A word means different things on different ports, so there is one decoder for
each port. -/

namespace Sys2Proof

/-- Why a word is no operation of its port. The first three are R55's illegal command words; the others are words the
block never presents on the transport port (R57). -/
inductive DecodeError where
  | reservedOperation
  | reservedBitsSet
  | operandNotZero
  | codeNeverIssued
  | padNotZero
  | argumentNotZero
  | noSuchSource
  | settingsBitsSet
deriving DecidableEq, Repr

/-- What the block presents on the transport port (a request word, R57) or the delay port (a tick count, R59). -/
inductive Request where
  | transport (w : Word16)
  | delay (ticks : Nat)
deriving DecidableEq, Repr

/-- A word on one of the block's input or output ports. -/
inductive PortWord where
  | host (w : Word16)
  | request (r : Request)
deriving DecidableEq, Repr

/-- Bits 15..12: `op` of a command word, `tq_op` of a request (R50, R57). -/
def opField (w : Word16) : BitVec 4 := w.extractLsb' 12 4

/-- Bits 11..8: `rsv` of a command word, the zero pad of a request word (R50, R57). -/
def padField (w : Word16) : BitVec 4 := w.extractLsb' 8 4

/-- Bits 7..0: the operand `a` of a command word, `tq_arg` of a request (R50, R51, R57). -/
def argField (w : Word16) : Byte := w.extractLsb' 0 8

/-- An operation that takes no operand: any operand but zero is refused under the given name. -/
def withoutArg (e : DecodeError) (a : Byte) (i : Instr) : Except DecodeError Instr :=
  if a = 0#8 then .ok i else .error e

/-- R58: source number 0 is TX_EMPTY, 1 is RX_FULL. -/
def decodeSource (a : Byte) (i : Source → Instr) : Except DecodeError Instr :=
  match a.toNat with
  | 0 => .ok (i .txEmpty)
  | 1 => .ok (i .rxFull)
  | _ => .error .noSuchSource

/-- R57: bit 0 is MODE, bit 1 the FIFO switch, bits 7..2 are zero. -/
def decodeSettings (a : Byte) : Except DecodeError Instr :=
  match a.toNat with
  | 0 => .ok (.tConfigure .txrx false)
  | 1 => .ok (.tConfigure .rxOnly false)
  | 2 => .ok (.tConfigure .txrx true)
  | 3 => .ok (.tConfigure .rxOnly true)
  | _ => .error .settingsBitsSet

/-- The host command port (R50, R53): the operation a command word spells, or why it is illegal (R55). -/
def decodeHost (hc : Word16) : Except DecodeError Instr :=
  if padField hc ≠ 0#4 then .error .reservedBitsSet else
  match (opField hc).toNat with
  | 1 => withoutArg .operandNotZero (argField hc) .setup
  | 2 => .ok (.capture (argField hc))
  | 3 => .ok (.rdframe (argField hc))
  | 4 => withoutArg .operandNotZero (argField hc) .rdlen
  | 5 => withoutArg .operandNotZero (argField hc) .rdrxcrc
  | 6 => withoutArg .operandNotZero (argField hc) .rdccrc
  | 7 => withoutArg .operandNotZero (argField hc) .rderr
  | 8 => withoutArg .operandNotZero (argField hc) .clrerr
  | _ => .error .reservedOperation

/-- The transport request port (R57). -/
def decodeTransport (tq : Word16) : Except DecodeError Instr :=
  if padField tq ≠ 0#4 then .error .padNotZero else
  match (opField tq).toNat with
  | 0 => withoutArg .argumentNotZero (argField tq) .tEnable
  | 1 => withoutArg .argumentNotZero (argField tq) .tDisable
  | 2 => withoutArg .argumentNotZero (argField tq) .tAssertSelect
  | 3 => withoutArg .argumentNotZero (argField tq) .tDeassertSelect
  | 4 => .ok (.tSetWordCount (argField tq))
  | 5 => .ok (.tSetFifoTriggerLevel (argField tq))
  | 6 => .ok (.tTransmit (argField tq))
  | 7 => withoutArg .argumentNotZero (argField tq) .tReceive
  | 8 => withoutArg .argumentNotZero (argField tq) .tTransferComplete
  | 9 => withoutArg .argumentNotZero (argField tq) .tInterruptStatus
  | 10 => decodeSource (argField tq) .tEnableInterrupt
  | 11 => decodeSource (argField tq) .tDisableInterrupt
  | 12 => decodeSource (argField tq) .tClearInterrupt
  | 13 => decodeSettings (argField tq)
  | _ => .error .codeNeverIssued

/-- A request the block presents: a transport word, or a tick count, every pattern of which is a delay (R59). -/
def decodeRequest : Request → Except DecodeError Instr
  | .transport w => decodeTransport w
  | .delay n => .ok (.dWaitTicks n)

/-- The decoder over the three ports. -/
def decode : PortWord → Except DecodeError Instr
  | .host w => decodeHost w
  | .request r => decodeRequest r

/-- A 16-bit word `{op, 0000, a}` (R50, R52, R57): `op` in bits 15..12, `a` in bits 7..0, zeros between. -/
def portWord (op : BitVec 4) (a : Byte) : Word16 := op.setWidth 16 <<< 12 ||| a.setWidth 16

/-- R58: the number of an interrupt source. -/
def sourceNumber : Source → Byte
  | .txEmpty => 0#8
  | .rxFull => 1#8

/-- R57: the argument of `configure`. -/
def settingsArg (m : ChannelMode) (fifo : Bool) : Byte :=
  match m, fifo with
  | .txrx, false => 0#8
  | .rxOnly, false => 1#8
  | .txrx, true => 2#8
  | .rxOnly, true => 3#8

/-- The word an instruction is on its own port (R53, R57, R59). -/
def encode : Instr → PortWord
  | .setup => .host (portWord 1#4 0#8)
  | .capture a => .host (portWord 2#4 a)
  | .rdframe a => .host (portWord 3#4 a)
  | .rdlen => .host (portWord 4#4 0#8)
  | .rdrxcrc => .host (portWord 5#4 0#8)
  | .rdccrc => .host (portWord 6#4 0#8)
  | .rderr => .host (portWord 7#4 0#8)
  | .clrerr => .host (portWord 8#4 0#8)
  | .tEnable => .request (.transport (portWord 0#4 0#8))
  | .tDisable => .request (.transport (portWord 1#4 0#8))
  | .tAssertSelect => .request (.transport (portWord 2#4 0#8))
  | .tDeassertSelect => .request (.transport (portWord 3#4 0#8))
  | .tSetWordCount n => .request (.transport (portWord 4#4 n))
  | .tSetFifoTriggerLevel n => .request (.transport (portWord 5#4 n))
  | .tTransmit b => .request (.transport (portWord 6#4 b))
  | .tReceive => .request (.transport (portWord 7#4 0#8))
  | .tTransferComplete => .request (.transport (portWord 8#4 0#8))
  | .tInterruptStatus => .request (.transport (portWord 9#4 0#8))
  | .tEnableInterrupt s => .request (.transport (portWord 10#4 (sourceNumber s)))
  | .tDisableInterrupt s => .request (.transport (portWord 11#4 (sourceNumber s)))
  | .tClearInterrupt s => .request (.transport (portWord 12#4 (sourceNumber s)))
  | .tConfigure m f => .request (.transport (portWord 13#4 (settingsArg m f)))
  | .dWaitTicks n => .request (.delay n)

/-- The request word of a port operation; a host operation is no request. -/
def requestOf (i : Instr) : Option Request :=
  match encode i with
  | .host _ => none
  | .request r => some r

/-- The answer of a decoder without its reason. -/
def accepted (r : Except DecodeError Instr) : Option Instr :=
  match r with
  | .ok i => some i
  | .error _ => none

/-- The port on which a word of spec/opcode_table.json is read. The table prints the words of three ports in one
numbering, and the host and transport ports have words in common (0x1000 is SETUP on one, T.disable on the other). A
16-bit word is read on the host command port when it spells a host operation there, else on the transport port; a
32-bit word is read on the delay port (log 11). -/
def tablePortWord (nbits w : Nat) : Option PortWord :=
  if nbits = 16 ∧ w < 2 ^ 16 then
    match decodeHost (BitVec.ofNat 16 w) with
    | .ok _ => some (.host (BitVec.ofNat 16 w))
    | .error _ => some (.request (.transport (BitVec.ofNat 16 w)))
  else if nbits = 32 ∧ w < 2 ^ 32 then some (.request (.delay w))
  else none

/-- The instruction the decoder reads from a word of the table, on the port `tablePortWord` gives it (log 11). -/
def decodeTableWord (nbits w : Nat) : Option Instr :=
  match tablePortWord nbits w with
  | some p => accepted (decode p)
  | none => none

end Sys2Proof
end

