-- ==== Sys2Proof/Machine/State.lean ====
section
/-! DEFINITION. State: the registers the spec gives the block (spec/10_state.md), its ports, the place of its two
contexts in the fixed program, the build, and the environment's coming moves; plain data throughout. State.reset. -/

namespace Sys2Proof.Machine

/-- The protocol state `pstate` (R14): six values, the two spare encodings unrepresentable (U23). -/
inductive PState where
  | idle
  | configured
  | csAsserted
  | transferring
  | csDeasserted
  | validated
deriving DecidableEq, Repr

/-- OK and FAIL: the values of the sticky flag (R16: 0 is OK, 1 is FAIL) and of a validation result (R75). -/
inductive Verdict where
  | ok
  | fail
deriving DecidableEq, Repr

/-- The two execution contexts (R167): the sequencer's and the handler's. -/
inductive Context where
  | calling
  | interrupt
deriving DecidableEq, Repr

/-- What the sequencer does next inside the operation in flight (log 3): the name of the port request it has
presented, or an action of its own between two requests. -/
inductive SeqPos where
  /-- No operation in flight: a command word may be accepted (R80, R81). -/
  | rest
  /-- SETUP has presented `T.configure` (R83). -/
  | configure
  /-- Transition 1 (R101). -/
  | setWordCount
  | setTrigger
  | enable
  /-- Transition 2 (R102); at `settle` the delay request is out and *done* is awaited. -/
  | assertSelect
  | waitTicks
  | settle
  /-- Entry of transition 3 (R103). -/
  | opening
  /-- The polling transfer (R105 to R107): transmit, one status observation, one receive. -/
  | transmit
  | observe
  | receive
  /-- The interrupt discipline (R108, R109): the two enables, then one read of `ready` a step. -/
  | enableTx
  | enableRx
  | watch
  /-- Transition 4 (R110). -/
  | deassertSelect
  | disable
  /-- Transition 5 (R111): validation, then the response with the return to IDLE. -/
  | validate
  | respond
  /-- The timeout sequence (R113). -/
  | toDisableTx
  | toDisableRx
  | toDeassertSelect
  | toDisable
deriving DecidableEq, Repr

/-- What the handler does next inside its run (log 4): the name of the port request it has presented (R160 to R163). -/
inductive HdlPos where
  /-- No run in progress: the sequencer is scheduled. -/
  | idle
  | status
  | txTransmit
  | txDisable
  | txClear
  | rxReceive
  | rxDisable
  | rxClear
deriving DecidableEq, Repr

/-- One port request of a run's history (R130): who issued it, the operation with its argument, the reply if the
operation has one. -/
structure PortEvent where
  ctx   : Context
  op    : Instr
  reply : Option Byte
deriving DecidableEq, Repr

/-- The state of the machine. The first block of fields is the spec's (spec/10_state.md), each under the spec's name. -/
structure State where
  cfg : Config
  /-- F.bytes (R11): the cells that hold a value, by rising address (log 8). -/
  fBytes : List Host.Cell
  /-- F.length (R12). -/
  fLength : Nat
  receivedCRC : Byte
  computedCRC : Byte
  pstate : PState
  idx : Nat
  errorFlag : Verdict
  ready : Bool
  configured : Bool
  dCid : Byte
  dHascode : Bool
  dCode : Byte
  dSettle : Nat
  armTx : Bool
  armRx : Bool
  wcnt : Nat
  /-- The sequencer's place, and the request it has presented (R57, R59; log 3, log 6). -/
  seq : SeqPos
  sreq : Option Request
  /-- A `waitTicks` is issued and not yet answered *done* (R145). -/
  delayBusy : Bool
  /-- The handler's place, its request, its loop variable k (R163), do_rx (R160), and a delivery that arrived during
  the run (R164) (log 4, log 5). -/
  hdl : HdlPos
  hreq : Option Request
  hk : Nat
  hDoRx : Bool
  irqPending : Bool
  /-- tq_rd, the last reply of the transport (R57). -/
  tqRd : Byte
  /-- Command words presented by the host and not yet accepted (R81; log 10), response words delivered (R52). -/
  cmds : List Word16
  responses : List Word16
  /-- The history of port requests (R130); the environment's coming replies and moves (R8); free values drawn (log 1). -/
  trace : List PortEvent
  replies : List Byte
  turns : List Turn
  draws : Nat
deriving DecidableEq, Repr

/-- The machine stops with a fault. -/
inductive Fault where
  /-- Raised by a frame-buffer read (RDFRAME, validate) of a cell that nothing has written since reset. R26 allows a
  model to fault there. Safe: the hardware would read some byte and go on; no run from reset gets here (log 8). -/
  | unwrittenFrameByte
deriving DecidableEq, Repr

/-- The model gives the step no meaning. -/
inductive Refusal where
  /-- Raised by `exec` for an instruction whose meaning is not written. Safe. -/
  | notModelled (mnemonic : String)
  /-- Raised by MemRead and MemWrite at an address at or above FRAME_CAP: R30 asks for a refusal, not a wrap. Safe: no
  rule produces such an address (log 9). -/
  | frameAddressOutOfRange
  /-- Raised by a step that finds on the transport port a word that is no request of R57 ("never issued"). Safe: the
  block presents only encoded requests (log 19). -/
  | requestNeverIssued
deriving DecidableEq, Repr

/-- What a step, an instruction or one of their parts ends in. -/
abbrev Result (α : Type) := Host.Outcome α Fault Refusal

/-- The registers at their reset values (R26, R180) for a build: `F.length`, the diagnostics, `errorFlag`, `ready`,
`configured`, the arm bits and `pstate` as R26 lists them, no frame byte with a value; the registers R26 leaves
unspecified at the values of log 7. The environment's part is empty. -/
def State.resetOf (cfg : Config) : State where
  cfg := cfg
  fBytes := []
  fLength := 0
  receivedCRC := 0#8
  computedCRC := 0#8
  pstate := .idle
  idx := 0
  errorFlag := .ok
  ready := false
  configured := false
  dCid := 0#8
  dHascode := false
  dCode := 0#8
  dSettle := 0
  armTx := false
  armRx := false
  wcnt := 0
  seq := .rest
  sreq := none
  delayBusy := false
  hdl := .idle
  hreq := none
  hk := 0
  hDoRx := false
  irqPending := false
  tqRd := 0#8
  cmds := []
  responses := []
  trace := []
  replies := []
  turns := []
  draws := 0

/-- The machine right after reset (R26), of the build that Config leaves open (log 2). -/
def State.reset : State := State.resetOf Config.build

end Sys2Proof.Machine
end

