-- ==== Sys2Proof/Machine/Operands.lean ====
section
/-! DEFINITION. The operand forms: what an operand byte selects (R51, R62), the well-formedness of a configuration
(R4), the argument bytes of the port requests (R57, R104, R162), and which request each place of the sequencer and of
the handler presents. -/

namespace Sys2Proof.Machine

/-- `CMD[a]`: the descriptor a command id selects, if the id is in the domain (R51, R62). -/
def descriptorOf (cfg : Config) (id : Byte) : Option Descriptor := cfg.cmd.lookup id

/-- One descriptor's part of `cfg_ok` (R4): its length is a frame's, its delay fits TICK_W bits, and a receive-only
channel has no command byte. -/
def descriptorOk (cfg : Config) (d : Descriptor) : Bool :=
  decide (2 ≤ d.rlen) && decide (d.rlen ≤ cfg.frameCap) && decide (d.settle < 2 ^ cfg.tickW) &&
    (cfg.mode != .rxOnly || d.code.isNone)

/-- WAIT_LIMIT's part of `cfg_ok` (R4): none, or at least 1. -/
def waitLimitOk : Option Nat → Bool
  | none => true
  | some n => decide (1 ≤ n)

/-- `cfg_ok(cfg)` (R4). Every id of CMD's domain is checked through the descriptor it selects. -/
def cfgOk (cfg : Config) : Bool :=
  decide (2 ≤ cfg.frameCap) && decide (cfg.frameCap ≤ 255) && waitLimitOk cfg.waitLimit &&
    cfg.cmd.all fun e => (descriptorOf cfg e.1).all (descriptorOk cfg)

/-- A count as the 8-bit argument or data byte it becomes on a port. -/
def countByte (n : Nat) : Byte := BitVec.ofNat 8 n

/-- The FIFO switch of `T.configure` (R144): enabled when DISCIPLINE = INTERRUPT. -/
def fifoSwitch (cfg : Config) : Bool := decide (cfg.discipline = .interrupt)

/-- `txbyte(k)` (R104). -/
def txByte (s : State) (k : Nat) : Byte :=
  if k = 0 ∧ s.dHascode = true then s.dCode else s.cfg.placeholder

/-- The byte a polling transfer transmits: `txbyte(idx)` in TXRX (R105), the one fill of the frame in RX_ONLY (R106). -/
def pollingByte (s : State) : Byte :=
  match s.cfg.mode with
  | .txrx => txByte s s.idx
  | .rxOnly => s.cfg.placeholder

/-- `hb`, the byte the handler transmits (R162): the command's code when there is one, else the placeholder. -/
def handlerByte (s : State) : Byte := if s.dHascode then s.dCode else s.cfg.placeholder

/-- The port operation that stands at a place of the sequencer's program (R83, R101, R102, R105 to R108, R110, R113). -/
def seqRequest (s : State) : SeqPos → Option Instr
  | .configure => some (.tConfigure s.cfg.mode (fifoSwitch s.cfg))
  | .setWordCount => some (.tSetWordCount (countByte s.fLength))
  | .setTrigger => some (.tSetFifoTriggerLevel (countByte s.fLength))
  | .enable => some .tEnable
  | .assertSelect => some .tAssertSelect
  | .waitTicks => some (.dWaitTicks s.dSettle)
  | .transmit => some (.tTransmit (pollingByte s))
  | .observe => some .tTransferComplete
  | .receive => some .tReceive
  | .enableTx => some (.tEnableInterrupt .txEmpty)
  | .enableRx => some (.tEnableInterrupt .rxFull)
  | .deassertSelect => some .tDeassertSelect
  | .disable => some .tDisable
  | .toDisableTx => some (.tDisableInterrupt .txEmpty)
  | .toDisableRx => some (.tDisableInterrupt .rxFull)
  | .toDeassertSelect => some .tDeassertSelect
  | .toDisable => some .tDisable
  | .rest => none
  | .settle => none
  | .opening => none
  | .watch => none
  | .validate => none
  | .respond => none

/-- The port operation that stands at a place of the handler's program (R160, R162, R163). -/
def hdlRequest (s : State) : HdlPos → Option Instr
  | .idle => none
  | .status => some .tInterruptStatus
  | .txTransmit => some (.tTransmit (handlerByte s))
  | .txDisable => some (.tDisableInterrupt .txEmpty)
  | .txClear => some (.tClearInterrupt .txEmpty)
  | .rxReceive => some .tReceive
  | .rxDisable => some (.tDisableInterrupt .rxFull)
  | .rxClear => some (.tClearInterrupt .rxFull)

end Sys2Proof.Machine
end

