-- ==== Sys2Proof/Machine/Flags.lean ====
section
/-! DEFINITION. The one-bit registers and the bits of a reply: the sticky flag's law (R76), the arm bits (R20), the
bits of the status replies (R57, R58), and the read-out of a flag as a data byte (R90). -/

namespace Sys2Proof.Machine

/-- `zext_8` of the sticky flag (R90, R16): 0 is OK, 1 is FAIL. -/
def verdictByte : Verdict → Byte
  | .ok => 0x00#8
  | .fail => 0x01#8

/-- The sticky flag's law (R76): FAIL if it was FAIL or the result is FAIL, else OK. -/
def stickyAfter (flag result : Verdict) : Verdict :=
  match flag, result with
  | .ok, .ok => .ok
  | .ok, .fail => .fail
  | .fail, .ok => .fail
  | .fail, .fail => .fail

/-- The result of a validation that left these two diagnostic bytes (R75): OK iff they are equal. -/
def verdictOf (received computed : Byte) : Verdict := if received = computed then .ok else .fail

/-- Bit 0 of a reply: true for `transferComplete`, accepted for `configure`; the other bits are ignored (R57). -/
def replyBit0 (b : Byte) : Bool := b.getLsbD 0

/-- The bit of an `interruptStatus` reply that reports a source (R58): bit 0 TX_EMPTY, bit 1 RX_FULL. -/
def reported (b : Byte) : Source → Bool
  | .txEmpty => b.getLsbD 0
  | .rxFull => b.getLsbD 1

/-- The arm bit of a source (R20). -/
def State.armed (s : State) : Source → Bool
  | .txEmpty => s.armTx
  | .rxFull => s.armRx

/-- Write the arm bit of a source (R20). -/
def State.setArm (s : State) (src : Source) (b : Bool) : State :=
  match src with
  | .txEmpty => { s with armTx := b }
  | .rxFull => { s with armRx := b }

/-- The handler can take a run (R160): a source is armed, in the interrupt discipline. -/
def State.canDeliver (s : State) : Bool := (s.armTx || s.armRx) && decide (s.cfg.discipline = .interrupt)

end Sys2Proof.Machine
end

