-- ==== Sys2Proof/Machine/Ops.lean ====
section
/-! DEFINITION. The named operations every rule is built from: sequencing of outcomes, the frame-buffer primitives
(R30), the turn of a step (R8), issuing a port request (R130), presenting the next one, responding (R52), raising an
error (R150), and entering and leaving the handler (R160, R164). -/

namespace Sys2Proof.Machine

/-- Go on with the value of a part that answered next; a fault or a refusal ends the whole. -/
def andThen {α β : Type} (r : Result α) (f : α → Result β) : Result β :=
  match r with
  | .next a => f a
  | .fault e => .fault e
  | .refused e => .refused e

/-! ### The frame buffer -/

/-- The canonical form of the frame buffer's list: addresses strictly rising (log 8). -/
abbrev Memory.wf (m : List Host.Cell) : Prop := m.Pairwise fun x y => x.1 < y.1

/-- The byte at an address; an unlisted cell has no value. -/
def Memory.read : List Host.Cell → Nat → Option Byte
  | [], _ => none
  | (a, b) :: m, k => if k = a then some b else Memory.read m k

/-- Write one byte, keeping the addresses rising. -/
def Memory.write : List Host.Cell → Nat → Byte → List Host.Cell
  | [], k, v => [(k, v)]
  | (a, b) :: m, k, v =>
    if k < a then (k, v) :: (a, b) :: m
    else if k = a then (k, v) :: m
    else (a, b) :: Memory.write m k v

/-- `MemRead(a, 1)` (R6, R30). -/
def memRead (s : State) (a : Nat) : Result Byte :=
  if a < s.cfg.frameCap then
    match Memory.read s.fBytes a with
    | some b => .next b
    | none => .fault .unwrittenFrameByte
  else .refused .frameAddressOutOfRange

/-- `MemWrite(a, 1, v)` (R6, R30). -/
def memWrite (s : State) (a : Nat) (v : Byte) : Result State :=
  if a < s.cfg.frameCap then .next { s with fBytes := Memory.write s.fBytes a v }
  else .refused .frameAddressOutOfRange

/-- The bytes at `n` addresses from `a` on, in address order (R31, R72). -/
def memReadRange (s : State) (a : Nat) : Nat → Result (List Byte)
  | 0 => .next []
  | n + 1 => andThen (memRead s a) fun b => andThen (memReadRange s (a + 1) n) fun bs => .next (b :: bs)

/-! ### Turns and replies -/

/-- Who moves at this step (R8; log 1). -/
def State.turn (s : State) : Turn :=
  match s.turns with
  | t :: _ => t
  | [] => Config.freeTurn s.draws

/-- The state once the turn is taken from the environment's moves. -/
def State.afterTurn (s : State) : State :=
  match s.turns with
  | _ :: ts => { s with turns := ts }
  | [] => { s with draws := s.draws + 1 }

/-- The transport's reply to the request being made (R130: any value; log 1). -/
def State.reply (s : State) : Byte :=
  match s.replies with
  | b :: _ => b
  | [] => Config.freeReply s.draws

/-- The state once that reply is taken. -/
def State.afterReply (s : State) : State :=
  match s.replies with
  | _ :: bs => { s with replies := bs }
  | [] => { s with draws := s.draws + 1 }

/-! ### Port requests -/

/-- Which context has the processor (R165, R167). -/
def State.context (s : State) : Context := if s.hdl = .idle then .calling else .interrupt

/-- A request without a reply is made: it enters the history (R130). -/
def State.issue (s : State) (op : Instr) : State :=
  { s with trace := s.trace ++ [⟨s.context, op, none⟩] }

/-- A request with a reply is made: the reply is drawn and stands in tq_rd, and both enter the history (R57, R130). -/
def State.issueForReply (s : State) (op : Instr) : State :=
  { s.afterReply with tqRd := s.reply, trace := s.trace ++ [⟨s.context, op, some s.reply⟩] }

/-- The sequencer goes to a place of its program and presents the request that stands there, if one does. -/
def State.goTo (s : State) (p : SeqPos) : State :=
  { s with seq := p, sreq := (seqRequest s p).bind requestOf }

/-- The handler goes to a place of its program and presents the request that stands there. -/
def State.hdlGoTo (s : State) (p : HdlPos) : State :=
  { s with hdl := p, hreq := (hdlRequest s p).bind requestOf }

/-! ### Responses and errors -/

/-- The status of a response (R54). -/
inductive Status where
  | ok
  | fail
  | malformed
  | timeout
  | configErr
deriving DecidableEq, Repr

/-- The status codes (R54). -/
def Status.code : Status → BitVec 4
  | .ok => 0x0#4
  | .fail => 0x1#4
  | .malformed => 0x2#4
  | .timeout => 0x3#4
  | .configErr => 0x4#4

/-- The response word `{st, 0000, d}` (R52). -/
def responseWord (st : Status) (d : Byte) : Word16 := portWord st.code d

/-- `respond(st, d)` (R6, R52). -/
def State.respond (s : State) (st : Status) (d : Byte) : State :=
  { s with responses := s.responses ++ [responseWord st d] }

/-- The four errors of the taxonomy (R150). -/
inductive HostError where
  | crcMismatch
  | malformedRequest
  | transportTimeout
  | configurationError
deriving DecidableEq, Repr

/-- The status code that reports an error (R150). -/
def HostError.status : HostError → Status
  | .crcMismatch => .fail
  | .malformedRequest => .malformed
  | .transportTimeout => .timeout
  | .configurationError => .configErr

/-- `raise E` (R6, R150): the operation ends with the error's status and data 0x00; nothing else is written. -/
def State.raise (s : State) (e : HostError) : State := s.respond e.status 0x00#8

/-- The status that reports a validation result (R111, R151). -/
def verdictStatus : Verdict → Status
  | .ok => .ok
  | .fail => HostError.crcMismatch.status

/-- The operation in flight is over: the sequencer is at rest and presents nothing (R80). -/
def State.retire (s : State) : State := s.goTo .rest

/-- The command word at the head of the port is accepted (R80). -/
def State.acceptCommand (s : State) : State := { s with cmds := s.cmds.tail }

/-! ### The interrupt: entry and return -/

/-- Handler entry (R160): no register is saved or changed; the run begins with `interruptStatus`. -/
def State.enterHandler (s : State) : State := { s with irqPending := false }.hdlGoTo .status

/-- Handler return (R164): the sequencer is scheduled again where it was; a delivery that arrived during the run takes
effect now as a new run, if a source is still armed. -/
def State.leaveHandler (s : State) : State :=
  if s.irqPending && s.canDeliver then s.enterHandler
  else { s with irqPending := false }.hdlGoTo .idle

end Sys2Proof.Machine
end

