-- ==== Sys2Proof/Machine/DelayOps.lean ====
section
/-! DEFINITION. The one request of the delay port (R145). -/

namespace Sys2Proof.Machine

/-- D.waitTicks n (R145): the request is made, and the sequencer takes no step until the delay service answers *done*
(a turn of its own; log 15). -/
def execDWaitTicks (n : Nat) (s : State) : Result State :=
  .next { s.issue (.dWaitTicks n) with delayBusy := true }

end Sys2Proof.Machine
end

