-- ==== Sys2Proof/Machine/Crc.lean ====
section
/-! DEFINITION. The CRC-8 engine and frame validation (spec/40_crc.md): Tbl, crc8, validate. -/

namespace Sys2Proof.Machine

/-- One of the eight steps of the table's procedure (R71). -/
def tblStep (c : Byte) : Byte := if c.getLsbD 7 then (c <<< 1) ^^^ 0x97#8 else c <<< 1

/-- `Tbl(i)` (R71, R42; log 12): the step applied eight times. -/
def tbl (i : Byte) : Byte := tblStep (tblStep (tblStep (tblStep (tblStep (tblStep (tblStep (tblStep i)))))))

/-- The loop and the last lookup of `crc8` (R72), from a seed `t` over the bytes that follow it. -/
def crcLoop (t : Byte) : List Byte → Byte
  | [] => tbl t
  | b :: bs => crcLoop (b ^^^ tbl t) bs

/-- `crc8(buffer, n)` (R72) for a buffer of capacity `cap`: refused with MalformedRequest when `n = 0` or `n` is over
the capacity (R73); else seeded with the first byte and run over the next `n - 1`. -/
def crc8 (cap : Nat) (buffer : List Byte) (n : Nat) : Except HostError Byte :=
  if n = 0 ∨ cap < n then .error .malformedRequest
  else
    match buffer.take n with
    | [] => .error .malformedRequest
    | b :: bs => .ok (crcLoop b bs)

/-- The diagnostics and the sticky flag after a validation that found these two bytes (R75, R76). -/
def State.recordCheck (s : State) (received computed : Byte) : State :=
  { s with
    receivedCRC := received
    computedCRC := computed
    errorFlag := stickyAfter s.errorFlag (verdictOf received computed) }

/-- `validate()` (R75): MalformedRequest, with nothing written, for a length below 2 or above the capacity; else the
two diagnostic bytes and the flag are written. Its result is `verdictOf` the two bytes. -/
def validate (s : State) : Result (Except HostError State) :=
  if s.fLength < 2 ∨ s.cfg.frameCap < s.fLength then .next (.error .malformedRequest)
  else
    andThen (memRead s (s.fLength - 1)) fun last =>
    andThen (memReadRange s 0 (s.fLength - 1)) fun payload =>
    match crc8 s.cfg.frameCap payload (s.fLength - 1) with
    | .error e => .next (.error e)
    | .ok c => .next (.ok (s.recordCheck (~~~last) c))

end Sys2Proof.Machine
end

