-- ==== Sys2Proof/Machine/HostOps.lean ====
section
/-! DEFINITION. The eight host operations (spec/41_host_ops.md): what an accepted command word does. SETUP and CAPTURE
go on over the port requests they present (Sequencer.lean). -/

namespace Sys2Proof.Machine

/-- SETUP (R83): CONFIG_ERR with nothing issued when the configuration is not well formed; else `T.configure` is
presented, and `configured` and the response follow its reply. -/
def execSetup (s : State) : Result State :=
  .next (if cfgOk s.cfg then s.goTo .configure else s.raise .configurationError)

/-- The registers transition 1 loads from the descriptor of command `a` (R101). `d_code` is loaded when there is one. -/
def State.loadDescriptor (s : State) (a : Byte) (d : Descriptor) : State :=
  { s with
    dCid := a
    dHascode := d.code.isSome
    dCode := d.code.getD s.dCode
    dSettle := d.settle
    fLength := d.rlen }

/-- CAPTURE a (R84): CONFIG_ERR when not configured, MALFORMED when `a` is no command; else transition 1 begins: the
descriptor is loaded and `T.setWordCount` presented (R101). -/
def execCapture (a : Byte) (s : State) : Result State :=
  .next (
    if s.configured then
      match descriptorOf s.cfg a with
      | some d => (s.loadDescriptor a d).goTo .setWordCount
      | none => s.raise .malformedRequest
    else s.raise .configurationError)

/-- RDFRAME a (R86). -/
def execRdframe (a : Byte) (s : State) : Result State :=
  if s.fLength ≤ a.toNat then .next (s.raise .malformedRequest)
  else andThen (memRead s a.toNat) fun b => .next (s.respond .ok b)

/-- RDLEN (R87). -/
def execRdlen (s : State) : Result State := .next (s.respond .ok (countByte s.fLength))

/-- RDRXCRC (R88). -/
def execRdrxcrc (s : State) : Result State := .next (s.respond .ok s.receivedCRC)

/-- RDCCRC (R89). -/
def execRdccrc (s : State) : Result State := .next (s.respond .ok s.computedCRC)

/-- RDERR (R90): reading does not clear the flag. -/
def execRderr (s : State) : Result State := .next (s.respond .ok (verdictByte s.errorFlag))

/-- CLRERR (R91): the flag is cleared and nothing else. -/
def execClrerr (s : State) : Result State := .next ({ s with errorFlag := .ok }.respond .ok 0x00#8)

/-- An illegal command word, once accepted, is answered MALFORMED and does nothing (R55). -/
def State.rejectCommand (s : State) : State := s.raise .malformedRequest

end Sys2Proof.Machine
end

