-- ==== Sys2Proof/Machine/TransportOps.lean ====
section
/-! DEFINITION. The fourteen transport requests (spec/43_transport_ops.md): what making the request does to the block.
The transport is environment (R24, R130): a request enters the history, its reply is drawn, and the arm bits mirror
the two enables (R20). What the issuing context does with the reply is in Sequencer.lean and Handler.lean. -/

namespace Sys2Proof.Machine

/-- T.enable (R131). -/
def execTEnable (s : State) : Result State := .next (s.issue .tEnable)

/-- T.disable (R132). -/
def execTDisable (s : State) : Result State := .next (s.issue .tDisable)

/-- T.assertSelect (R133). -/
def execTAssertSelect (s : State) : Result State := .next (s.issue .tAssertSelect)

/-- T.deassertSelect (R134). -/
def execTDeassertSelect (s : State) : Result State := .next (s.issue .tDeassertSelect)

/-- T.setWordCount n (R135). -/
def execTSetWordCount (n : Byte) (s : State) : Result State := .next (s.issue (.tSetWordCount n))

/-- T.setFifoTriggerLevel n (R136). -/
def execTSetFifoTriggerLevel (n : Byte) (s : State) : Result State := .next (s.issue (.tSetFifoTriggerLevel n))

/-- T.transmit b (R137). -/
def execTTransmit (b : Byte) (s : State) : Result State := .next (s.issue (.tTransmit b))

/-- T.receive (R138): the reply is any byte. -/
def execTReceive (s : State) : Result State := .next (s.issueForReply .tReceive)

/-- T.transferComplete (R139): the reply's bit 0 is the answer. -/
def execTTransferComplete (s : State) : Result State := .next (s.issueForReply .tTransferComplete)

/-- T.interruptStatus (R140): bits 0 and 1 of the reply are the answer. -/
def execTInterruptStatus (s : State) : Result State := .next (s.issueForReply .tInterruptStatus)

/-- T.enableInterrupt src (R141): the source's arm bit is set (R20). -/
def execTEnableInterrupt (src : Source) (s : State) : Result State :=
  .next ((s.issue (.tEnableInterrupt src)).setArm src true)

/-- T.disableInterrupt src (R142): the source's arm bit is cleared (R20). Disabling twice is harmless (R190). -/
def execTDisableInterrupt (src : Source) (s : State) : Result State :=
  .next ((s.issue (.tDisableInterrupt src)).setArm src false)

/-- T.clearInterrupt src (R143): the pending indication is the transport's. -/
def execTClearInterrupt (src : Source) (s : State) : Result State := .next (s.issue (.tClearInterrupt src))

/-- T.configure m f (R144): the reply's bit 0 is accepted or refused. -/
def execTConfigure (m : ChannelMode) (f : Bool) (s : State) : Result State :=
  .next (s.issueForReply (.tConfigure m f))

end Sys2Proof.Machine
end

