-- ==== Sys2Proof/Machine/Dispatch.lean ====
section
/-! DEFINITION. exec: one arm per constructor of Instr, each one call of the instruction's meaning. -/

namespace Sys2Proof.Machine

def exec (i : Instr) (s : State) : Host.Outcome State Fault Refusal :=
  match i with
  | .setup => Sys2Proof.Machine.execSetup s
  | .capture a => Sys2Proof.Machine.execCapture a s
  | .rdframe a => Sys2Proof.Machine.execRdframe a s
  | .rdlen => Sys2Proof.Machine.execRdlen s
  | .rdrxcrc => Sys2Proof.Machine.execRdrxcrc s
  | .rdccrc => Sys2Proof.Machine.execRdccrc s
  | .rderr => Sys2Proof.Machine.execRderr s
  | .clrerr => Sys2Proof.Machine.execClrerr s
  | .tEnable => Sys2Proof.Machine.execTEnable s
  | .tDisable => Sys2Proof.Machine.execTDisable s
  | .tAssertSelect => Sys2Proof.Machine.execTAssertSelect s
  | .tDeassertSelect => Sys2Proof.Machine.execTDeassertSelect s
  | .tSetWordCount n => Sys2Proof.Machine.execTSetWordCount n s
  | .tSetFifoTriggerLevel n => Sys2Proof.Machine.execTSetFifoTriggerLevel n s
  | .tTransmit b => Sys2Proof.Machine.execTTransmit b s
  | .tReceive => Sys2Proof.Machine.execTReceive s
  | .tTransferComplete => Sys2Proof.Machine.execTTransferComplete s
  | .tInterruptStatus => Sys2Proof.Machine.execTInterruptStatus s
  | .tEnableInterrupt src => Sys2Proof.Machine.execTEnableInterrupt src s
  | .tDisableInterrupt src => Sys2Proof.Machine.execTDisableInterrupt src s
  | .tClearInterrupt src => Sys2Proof.Machine.execTClearInterrupt src s
  | .tConfigure m f => Sys2Proof.Machine.execTConfigure m f s
  | .dWaitTicks n => Sys2Proof.Machine.execDWaitTicks n s

end Sys2Proof.Machine
end

