-- ==== Sys2Proof/Machine/Environment.lean ====
section
/-! DEFINITION. What the environment does to the block at its own turns (R8): an interrupt delivery, the delay
service's *done*, a command word presented, reset. -/

namespace Sys2Proof.Machine

/-- An interrupt is delivered (R160): the handler is entered. During a run the delivery waits for the run's end (R164).
While nothing is armed it is no step of the handler (U17; log 17). -/
def State.deliver (s : State) : State :=
  if s.canDeliver then
    if s.hdl = .idle then s.enterHandler else { s with irqPending := true }
  else s

/-- The delay service answers *done* (R145). -/
def State.delayDone (s : State) : State := { s with delayBusy := false }

/-- The host presents a command word (R80); it stands behind those not yet accepted (log 10). -/
def State.presentCommand (s : State) (w : Word16) : State := { s with cmds := s.cmds ++ [w] }

/-- Reset is asserted (R180, R181): every register of the block takes its reset value, words presented are dropped, no
port operation is issued and no response delivered. The build and the environment are as they were. -/
def State.resetBlock (s : State) : State :=
  { State.resetOf s.cfg with
    responses := s.responses
    trace := s.trace
    replies := s.replies
    turns := s.turns
    draws := s.draws }

end Sys2Proof.Machine
end

