-- ==== Sys2Proof/Machine/Handler.lean ====
section
/-! DEFINITION. The interrupt handler (R160 to R166): what it does when a port request it presented is complete. -/

namespace Sys2Proof.Machine

/-- The next byte of the drain, or the disable when F.length bytes are stored (R163). -/
def State.drainNext (s : State) : State :=
  if s.hk < s.fLength then s.hdlGoTo .rxReceive else s.hdlGoTo .rxDisable

/-- After the TX_EMPTY part of the run (R160): service RX_FULL if do_rx, else return. -/
def State.hdlAfterTx (s : State) : State :=
  if s.hDoRx then { s with hk := 0 }.drainNext else s.leaveHandler

/-- The status reply is in (R160): a source is serviced when it is reported and armed, TX_EMPTY first (R159). -/
def State.hdlServe (s : State) : State :=
  if reported s.tqRd .txEmpty && s.armTx then
    { s with hDoRx := reported s.tqRd .rxFull && s.armRx }.hdlGoTo .txTransmit
  else { s with hDoRx := reported s.tqRd .rxFull && s.armRx }.hdlAfterTx

/-- `b <- T.receive(); MemWrite(k, 1, b)` of the drain (R163). -/
def hdlStore (s : State) : Result State :=
  andThen (memWrite s s.hk s.tqRd) fun t => .next { t with hk := t.hk + 1 }.drainNext

/-- The request the handler presented is complete; it goes on from its place (R160, R162, R163). -/
def hdlResume (s : State) : Result State :=
  match s.hdl with
  | .idle => .next { s with hreq := none }
  | .status => .next s.hdlServe
  | .txTransmit => .next (s.hdlGoTo .txDisable)
  | .txDisable => .next (s.hdlGoTo .txClear)
  | .txClear => .next s.hdlAfterTx
  | .rxReceive => hdlStore s
  | .rxDisable => .next (s.hdlGoTo .rxClear)
  | .rxClear => .next { s with ready := true }.leaveHandler

end Sys2Proof.Machine
end

