-- ==== Sys2Proof/Machine/Sequencer.lean ====
section
/-! DEFINITION. The sequencer's fixed program (spec/42_acquisition.md, and SETUP's second half, R83): what it does when
a port request it presented is complete, and the actions between two requests. -/

namespace Sys2Proof.Machine

/-- The start of `wait_until` (R112): the counter is cleared before the first observation at place `p`. -/
def State.startWait (s : State) (p : SeqPos) : State := { s with wcnt := 0 }.goTo p

/-- The first request of the timeout sequence (R113): the disables only in the interrupt discipline. -/
def State.startTimeout (s : State) : State :=
  match s.cfg.discipline with
  | .polling => s.goTo .toDeassertSelect
  | .interrupt => s.goTo .toDisableTx

/-- An observation of `wait_until` failed at place `p` (R112): observe again, unless WAIT_LIMIT is now reached. -/
def State.failedObservation (s : State) (p : SeqPos) : State :=
  match s.cfg.waitLimit with
  | none => s.goTo p
  | some n =>
    if s.wcnt + 1 = n then { s with wcnt := s.wcnt + 1 }.startTimeout
    else { s with wcnt := s.wcnt + 1 }.goTo p

/-- The polling transfer goes on with byte `idx` of the frame, or to transition 4 when it is complete (R105 to R107).
TXRX: a transmit, a wait, a receive for each byte. RX_ONLY: a wait and a receive, without the wait for the last byte
unless FINAL_READ_POLL. -/
def State.nextByte (s : State) : State :=
  if s.fLength ≤ s.idx then s.goTo .deassertSelect
  else
    match s.cfg.mode with
    | .txrx => s.goTo .transmit
    | .rxOnly =>
      if s.idx + 1 = s.fLength ∧ s.cfg.finalReadPoll = false then s.goTo .receive
      else s.startWait .observe

/-- Entry of transition 3 (R103): R105 and R106 clear `idx`, R108 clears `ready`, before any request. -/
def State.openTransfer (s : State) : State :=
  match s.cfg.discipline with
  | .interrupt => { s with pstate := .transferring, ready := false }.goTo .enableTx
  | .polling =>
    match s.cfg.mode with
    | .txrx => { s with pstate := .transferring, idx := 0 }.nextByte
    | .rxOnly => { s with pstate := .transferring, idx := 0 }.goTo .transmit

/-- After a polling transmit: R105 waits for its word; R106's fill goes to the first byte of the loop. -/
def State.afterTransmit (s : State) : State :=
  match s.cfg.mode with
  | .txrx => s.startWait .observe
  | .rxOnly => s.nextByte

/-- `b <- T.receive(); MemWrite(idx, 1, b); idx <- idx + 1` (R105 to R107). -/
def storeReceived (s : State) : Result State :=
  andThen (memWrite s s.idx s.tqRd) fun t => .next { t with idx := t.idx + 1 }.nextByte

/-- The end of SETUP (R83): `configured` is set when the transport accepted, and keeps its value when it refused. -/
def State.endSetup (s : State) : State :=
  if replyBit0 s.tqRd then { s with configured := true }.retire.respond .ok 0x00#8
  else s.retire.raise .configurationError

/-- The end of a timeout (R113): the partial frame is made unreadable and the error reported. -/
def State.endTimeout (s : State) : State :=
  { s with fLength := 0, pstate := .idle }.retire.raise .transportTimeout

/-- The request the sequencer presented is complete; it goes on from its place. -/
def seqResume (s : State) : Result State :=
  match s.seq with
  | .configure => .next s.endSetup
  | .setWordCount =>
    .next (match s.cfg.discipline with
      | .interrupt => s.goTo .setTrigger
      | .polling => s.goTo .enable)
  | .setTrigger => .next (s.goTo .enable)
  | .enable => .next ({ s with pstate := .configured }.goTo .assertSelect)
  | .assertSelect => .next (s.goTo .waitTicks)
  | .waitTicks => .next (s.goTo .settle)
  | .transmit => .next s.afterTransmit
  | .observe => .next (if replyBit0 s.tqRd then s.goTo .receive else s.failedObservation .observe)
  | .receive => storeReceived s
  | .enableTx => .next (s.goTo .enableRx)
  | .enableRx => .next (s.startWait .watch)
  | .deassertSelect => .next (s.goTo .disable)
  | .disable => .next ({ s with pstate := .csDeasserted }.goTo .validate)
  | .toDisableTx => .next (s.goTo .toDisableRx)
  | .toDisableRx => .next (s.goTo .toDeassertSelect)
  | .toDeassertSelect => .next (s.goTo .toDisable)
  | .toDisable => .next s.endTimeout
  | .rest => .next { s with sreq := none }
  | .settle => .next { s with sreq := none }
  | .opening => .next { s with sreq := none }
  | .watch => .next { s with sreq := none }
  | .validate => .next { s with sreq := none }
  | .respond => .next { s with sreq := none }

/-- Validation at transition 5 (R111). MalformedRequest cannot arise from a `cfg_ok` build; it would end the operation
with nothing written (R152; log 14). -/
def seqValidate (s : State) : Result State :=
  andThen (validate s) fun r =>
    .next (match r with
      | .ok t => { t with pstate := .validated }.goTo .respond
      | .error e => s.retire.raise e)

/-- The response of transition 5 with the return to IDLE (R111): the result is OK iff the diagnostics are equal. -/
def State.endCapture (s : State) : State :=
  ({ s with pstate := .idle }.retire).respond (verdictStatus (verdictOf s.receivedCRC s.computedCRC)) 0x00#8

/-- An action of the sequencer that is no port request. At a place where a request stands and none is presented, it is
presented. -/
def seqAction (s : State) : Result State :=
  match s.seq with
  | .rest => .next s
  | .settle => .next ({ s with pstate := .csAsserted }.goTo .opening)
  | .opening => .next s.openTransfer
  | .watch => .next (if s.ready then s.goTo .deassertSelect else s.failedObservation .watch)
  | .validate => seqValidate s
  | .respond => .next s.endCapture
  | .configure => .next (s.goTo .configure)
  | .setWordCount => .next (s.goTo .setWordCount)
  | .setTrigger => .next (s.goTo .setTrigger)
  | .enable => .next (s.goTo .enable)
  | .assertSelect => .next (s.goTo .assertSelect)
  | .waitTicks => .next (s.goTo .waitTicks)
  | .transmit => .next (s.goTo .transmit)
  | .observe => .next (s.goTo .observe)
  | .receive => .next (s.goTo .receive)
  | .enableTx => .next (s.goTo .enableTx)
  | .enableRx => .next (s.goTo .enableRx)
  | .deassertSelect => .next (s.goTo .deassertSelect)
  | .disable => .next (s.goTo .disable)
  | .toDisableTx => .next (s.goTo .toDisableTx)
  | .toDisableRx => .next (s.goTo .toDisableRx)
  | .toDeassertSelect => .next (s.goTo .toDeassertSelect)
  | .toDisable => .next (s.goTo .toDisable)

end Sys2Proof.Machine
end

