-- ==== Sys2Proof/Machine/Fetch.lean ====
section
/-! DEFINITION. What the processor finds to do at its turn: the port request presented by the context that has it, a
command word to accept, an action between two requests, or nothing. -/

namespace Sys2Proof.Machine

/-- What stands next. -/
inductive Fetched where
  /-- A command word is accepted and spells this host operation (R80). -/
  | command (i : Instr)
  /-- A command word is accepted and is illegal (R55). -/
  | illegalCommand (e : DecodeError)
  /-- The port request presented is this operation. -/
  | request (i : Instr)
  /-- The word on the port is no request (R57). -/
  | badRequest (e : DecodeError)
  /-- No request: the context acts by itself. -/
  | action
  /-- Nothing: a delay is not done (R145), or no command word can be accepted (R81). -/
  | waiting
deriving DecidableEq, Repr

/-- A presented request, decoded. -/
def fetchRequest (r : Request) : Fetched :=
  match decodeRequest r with
  | .ok i => .request i
  | .error e => .badRequest e

/-- The sequencer at rest accepts the word at the head of the port only when `pstate = IDLE` (R81). -/
def fetchCommand (s : State) : Fetched :=
  if s.pstate = .idle then
    match s.cmds with
    | [] => .waiting
    | w :: _ =>
      match decodeHost w with
      | .ok i => .command i
      | .error e => .illegalCommand e
  else .waiting

/-- What the sequencer does next. -/
def fetchSequencer (s : State) : Fetched :=
  if s.delayBusy then .waiting
  else
    match s.sreq with
    | some r => fetchRequest r
    | none => if s.seq = .rest then fetchCommand s else .action

/-- What the handler does next in its run. -/
def fetchHandler (s : State) : Fetched :=
  match s.hreq with
  | some r => fetchRequest r
  | none => .action

/-- What the processor does next: while a handler run is in progress the sequencer is not scheduled (R160, R165). -/
def fetch (s : State) : Fetched := if s.hdl = .idle then fetchSequencer s else fetchHandler s

/-- The request made is complete: the context that presented it goes on. -/
def resume (s : State) : Result State := if s.hdl = .idle then seqResume s else hdlResume s

/-- The context that has the processor acts without a request. -/
def action (s : State) : Result State := if s.hdl = .idle then seqAction s else .next (s.hdlGoTo s.hdl)

/-- A state whose next turn is the processor's, with no handler run and no delay in its way. -/
def State.clearWay (s : State) : State :=
  { s with
    turns := .run :: s.turns
    hdl := .idle
    hreq := none
    irqPending := false
    delayBusy := false }

/-- A word stands where the next step fetches it: a command word at the head of the host port of a block at rest, a
request on the sequencer's port (log 11). -/
def State.placeWord (s : State) (p : PortWord) : State :=
  match p with
  | .host w => { s.clearWay with pstate := .idle, seq := .rest, sreq := none, cmds := w :: s.cmds }
  | .request r => { s.clearWay with sreq := some r }

end Sys2Proof.Machine
end

