-- ==== Sys2Proof/Machine/Step.lean ====
section
/-! DEFINITION. One step of the machine: the agent whose turn it is moves (R8). At the processor's turn the operation
fetched is run by `exec`; a port request then hands its reply to the context that presented it. -/

namespace Sys2Proof.Machine

/-- The processor's turn. -/
def runTurn (s : State) : Result State :=
  match fetch s with
  | .command i => exec i s.acceptCommand
  | .illegalCommand _ => .next s.acceptCommand.rejectCommand
  | .request i => andThen (exec i s) resume
  | .badRequest _ => .refused .requestNeverIssued
  | .action => action s
  | .waiting => .next s

/-- What the agent of a turn does. -/
def takeTurn (t : Turn) (s : State) : Result State :=
  match t with
  | .run => runTurn s
  | .interrupt => .next s.deliver
  | .delayDone => .next s.delayDone
  | .present w => .next (s.presentCommand w)
  | .reset => .next s.resetBlock

/-- One step: the turn is taken from the environment's moves and its agent moves (R8; log 1). -/
def step (s : State) : Host.Outcome State Fault Refusal := takeTurn s.turn s.afterTurn

/-- `s` with the instruction whose table bits are `w` standing where the next step fetches it (log 11). -/
def State.withFetchWord (s : State) (nbits w : Nat) : State :=
  match tablePortWord nbits w with
  | some p => s.placeWord p
  | none => s

end Sys2Proof.Machine
end

