-- ==== Sys2Proof/Safety.lean ====
section
/-! DEFINITION. What a safe state is: the invariant `State.Inv` every step keeps, in the terms the claims use, and the
relations claims compare states by. -/

namespace Sys2Proof.Machine

/-- The protocol state the spec gives each place of the sequencer's program: `pstate` is written as the last line of
transitions 1, 2 and 4 and as the first of transition 3 (R101 to R113). -/
def pstateAt : SeqPos → PState
  | .rest => .idle
  | .configure => .idle
  | .setWordCount => .idle
  | .setTrigger => .idle
  | .enable => .idle
  | .assertSelect => .configured
  | .waitTicks => .configured
  | .settle => .configured
  | .opening => .csAsserted
  | .transmit => .transferring
  | .observe => .transferring
  | .receive => .transferring
  | .enableTx => .transferring
  | .enableRx => .transferring
  | .watch => .transferring
  | .deassertSelect => .transferring
  | .disable => .transferring
  | .validate => .csDeasserted
  | .respond => .validated
  | .toDisableTx => .transferring
  | .toDisableRx => .transferring
  | .toDeassertSelect => .transferring
  | .toDisable => .transferring

/-- A CAPTURE is in flight: past its acceptance, before its response (R80, R115). -/
def SeqPos.inCapture (p : SeqPos) : Bool := p != .rest && p != .configure

/-- A place of the polling transfer (R105 to R107). -/
def SeqPos.polls (p : SeqPos) : Bool := p == .transmit || p == .observe || p == .receive

/-- A place that only the interrupt discipline has (R101, R108, R109, R113). -/
def SeqPos.interruptOnly (p : SeqPos) : Bool :=
  p == .setTrigger || p == .enableTx || p == .enableRx || p == .watch || p == .toDisableTx || p == .toDisableRx

/-- A place at which RX_FULL may be armed: the wait and the first two requests of a timeout (R108, R109, R113). -/
def SeqPos.rxMayBeArmed (p : SeqPos) : Bool := p == .watch || p == .toDisableTx || p == .toDisableRx

/-- A place at which the whole frame is in the buffer: after the transfer, and between transactions (R103, R12). -/
def SeqPos.frameComplete (p : SeqPos) : Bool :=
  p == .deassertSelect || p == .disable || p == .validate || p == .respond || p == .rest || p == .configure

/-- A place of a handler run that services RX_FULL (R163). -/
def HdlPos.drains (p : HdlPos) : Bool := p == .rxReceive || p == .rxDisable || p == .rxClear

/-- A place of a handler run that services TX_EMPTY (R162). -/
def HdlPos.transmits (p : HdlPos) : Bool := p == .txTransmit || p == .txDisable || p == .txClear

/-- The cells at addresses below `n` all hold a value. -/
def Memory.filled (m : List Host.Cell) (n : Nat) : Prop := ∀ a, a < n → (Memory.read m a).isSome = true

/-- The invariant of the machine. The block's registers are in the ranges of spec/10_state.md, each context presents
the request its place asks for, and no cell is read before it is written (R26). -/
structure State.Inv (s : State) : Prop where
  /-- The frame buffer is in canonical form, inside its capacity (R11, R30). -/
  memWf : Memory.wf s.fBytes
  memBelow : ∀ c ∈ s.fBytes, c.1 < s.cfg.frameCap
  /-- `configured` says that SETUP found the configuration well formed (R18). -/
  configuredOk : s.configured = true → cfgOk s.cfg = true
  setupOk : s.seq = .configure → cfgOk s.cfg = true
  /-- F.length is 0, or a frame's (R12). -/
  length : s.fLength = 0 ∨ (cfgOk s.cfg = true ∧ 2 ≤ s.fLength ∧ s.fLength ≤ s.cfg.frameCap)
  /-- `pstate` and the place of the sequencer agree (R14). -/
  phase : s.pstate = pstateAt s.seq
  /-- Each context presents the request that stands at its place (R57, R130). -/
  presented : s.sreq = (seqRequest s s.seq).bind requestOf
  hdlPresented : s.hreq = (hdlRequest s s.hdl).bind requestOf
  /-- A transaction runs only when configured, with a descriptor of the build (R84, R101). -/
  inFlight : s.seq.inCapture = true → s.configured = true ∧ 2 ≤ s.fLength ∧ s.dSettle < 2 ^ s.cfg.tickW
  /-- The discipline has its own places (R103), and polling leaves the interrupt registers alone (R17, R20, R157). -/
  pollPlaces : s.seq.polls = true → s.cfg.discipline = .polling
  irqPlaces : s.seq.interruptOnly = true → s.cfg.discipline = .interrupt
  quiet : s.cfg.discipline = .polling →
    s.armTx = false ∧ s.armRx = false ∧ s.ready = false ∧ s.hdl = .idle ∧ s.irqPending = false
  /-- The polling transfer has stored exactly the bytes below `idx` (R15). -/
  polled : s.seq.polls = true → s.idx < s.fLength ∧ Memory.filled s.fBytes s.idx
  /-- A complete frame is in the buffer where one is announced or may be read (R37, R163). -/
  complete : s.seq.frameComplete = true → Memory.filled s.fBytes s.fLength
  announced : s.seq = .watch → s.ready = true → Memory.filled s.fBytes s.fLength ∧ s.armRx = false
  /-- `ready` is clear while the sources are being armed (R108, R183). -/
  cleared : s.seq = .enableTx ∨ s.seq = .enableRx → s.ready = false
  /-- RX_FULL is armed, or being serviced, only in the wait and at the start of a timeout. -/
  rxArmed : s.armRx = true → s.seq.rxMayBeArmed = true
  drainPlace : s.hdl.drains = true → s.seq.rxMayBeArmed = true
  doRxArmed : s.hdl.transmits = true → s.hDoRx = true → s.armRx = true
  /-- The drain has stored exactly the bytes below k (R163). -/
  draining : s.hdl = .rxReceive → s.hk < s.fLength ∧ Memory.filled s.fBytes s.hk
  drained : s.hdl = .rxDisable ∨ s.hdl = .rxClear → Memory.filled s.fBytes s.fLength
  drainArmed : s.hdl = .rxReceive ∨ s.hdl = .rxDisable → s.armRx = true
  disarmed : s.hdl = .rxClear → s.armRx = false
  /-- A delay is out only at its place (R102). -/
  delayPlace : s.delayBusy = true → s.seq = .settle
  /-- A delivery is remembered only during a run (R164). -/
  pendingInRun : s.irqPending = true → s.hdl ≠ .idle
  /-- A bounded wait has observations left (R112). -/
  waitLeft : s.seq = .observe ∨ s.seq = .watch → ∀ n, s.cfg.waitLimit = some n → s.wcnt < n

/-! ### Terms the claims use -/

/-- `n` steps of the machine, stopping at a fault or a refusal. -/
def runSteps (n : Nat) (s : State) : Result State := Host.Core.run Sys2Proof.core n s

/-- The sequencer has the processor and is at rest in IDLE: it can accept a command word (R80, R81). -/
def State.atRest (s : State) : Prop :=
  s.hdl = .idle ∧ s.delayBusy = false ∧ s.seq = .rest ∧ s.sreq = none ∧ s.pstate = .idle

/-- The sequencer has the processor and stands at place `p`, with the request of that place presented. -/
def State.standsAt (s : State) (p : SeqPos) : Prop :=
  s.hdl = .idle ∧ s.delayBusy = false ∧ s.seq = p ∧ s.sreq = (seqRequest s p).bind requestOf

/-- The handler has the processor and stands at place `p`, with the request of that place presented. -/
def State.inHandler (s : State) (p : HdlPos) : Prop :=
  p ≠ .idle ∧ s.hdl = p ∧ s.hreq = (hdlRequest s p).bind requestOf

/-- The processor moves at each of `n` steps. -/
def runs (n : Nat) : List Turn := List.replicate n .run

/-- A request of the sequencer in the history, without a reply. -/
def called (op : Instr) : PortEvent := ⟨.calling, op, none⟩

/-- A request of the sequencer in the history, with its reply. -/
def asked (op : Instr) (b : Byte) : PortEvent := ⟨.calling, op, some b⟩

/-- A request of the handler in the history, without a reply. -/
def hCalled (op : Instr) : PortEvent := ⟨.interrupt, op, none⟩

/-- A request of the handler in the history, with its reply. -/
def hAsked (op : Instr) (b : Byte) : PortEvent := ⟨.interrupt, op, some b⟩

/-- The textbook byte-wise table CRC (R77 (b)): initial value 0x00, no final exclusive or. -/
def crcTextbook (bytes : List Byte) : Byte := bytes.foldl (fun c b => tbl (c ^^^ b)) 0x00#8

/-- What a history says of a source (R20): enabled, and not disabled since. -/
def armedBy (src : Source) (trace : List PortEvent) : Bool :=
  trace.foldl (fun b e =>
    if e.op = .tEnableInterrupt src then true else if e.op = .tDisableInterrupt src then false else b) false

/-- A next state changed by `f`; a fault or a refusal as it is. -/
def onNext (f : State → State) (r : Result State) : Result State := andThen r fun t => .next (f t)

/-- An operation is in flight: past its acceptance, before its response (R80). -/
def inFlightCount (s : State) : Nat := if s.seq = .rest then 0 else 1

/-- The step accepts a command word (R80). -/
def acceptsCommand (s : State) : Bool :=
  match s.turn, fetch s.afterTurn with
  | .run, .command _ => true
  | .run, .illegalCommand _ => true
  | _, _ => false

/-- One word of a polling transfer as the environment plays it: the status replies that say "not complete", the one
that says "complete", and the byte received. -/
structure WordReplies where
  failed : List Byte
  done   : Byte
  byte   : Byte
deriving DecidableEq, Repr

/-- The status replies of a word are what their names say, and fewer fail than WAIT_LIMIT allows (R112). -/
def WordReplies.valid (limit : Option Nat) (w : WordReplies) : Prop :=
  (∀ b ∈ w.failed, b.getLsbD 0 = false) ∧ w.done.getLsbD 0 = true ∧ ∀ n, limit = some n → w.failed.length < n

/-- The replies of a word, in order. -/
def WordReplies.replies (w : WordReplies) : List Byte := w.failed ++ [w.done, w.byte]

/-- The status reads of a word in the history: `tc+` of R114. -/
def WordReplies.statusReads (w : WordReplies) : List PortEvent :=
  (w.failed ++ [w.done]).map (asked .tTransferComplete)

/-- One exchange of a transmit/receive transfer in the history: transmit, status reads, receive (R105). -/
def WordReplies.exchange (w : WordReplies) (sent : Byte) : List PortEvent :=
  called (.tTransmit sent) :: w.statusReads ++ [asked .tReceive w.byte]

/-- The verdict on a frame of two bytes or more (R75): the complement of its last byte against the checksum of the
rest. -/
def frameVerdict (bytes : List Byte) : Verdict :=
  if ~~~(bytes.getLast?.getD 0#8) = crcTextbook bytes.dropLast then .ok else .fail

/-- The frame buffer holds these bytes from address 0 on, and reads as `old` everywhere else (R31). -/
def Memory.holds (m old : List Host.Cell) (bytes : List Byte) : Prop :=
  ∀ k, Memory.read m k = match bytes[k]? with
    | some b => some b
    | none => Memory.read old k

end Sys2Proof.Machine
end

