-- ==== Sys2Proof/Certificates/Slice0/Obligations.lean ====
section
/-! DEFINITION. The statements for the provers, in the order of OBLIGATIONS.json. -/

open Sys2Proof Sys2Proof.Machine

/-! ### Encoding -/

/-- Decoding and encoding agree on all three ports, every operand at every value (R50, R53, R57, R59). -/
def Obligations.DecodeEncodeRoundTrip : Prop :=
  ∀ (p : PortWord) (i : Instr), decode p = .ok i ↔ encode i = p

/-- R53: a command word spells the operation of a row when it has the row's match under the row's mask. -/
def Obligations.HostWordsSpellTheTable : Prop :=
  ∀ w : Word16,
    (decodeHost w = .ok .setup ↔ w &&& 0xFFFF#16 = 0x1000#16) ∧
    (∀ a, decodeHost w = .ok (.capture a) ↔ w &&& 0xFF00#16 = 0x2000#16 ∧ a = w.extractLsb' 0 8) ∧
    (∀ a, decodeHost w = .ok (.rdframe a) ↔ w &&& 0xFF00#16 = 0x3000#16 ∧ a = w.extractLsb' 0 8) ∧
    (decodeHost w = .ok .rdlen ↔ w &&& 0xFFFF#16 = 0x4000#16) ∧
    (decodeHost w = .ok .rdrxcrc ↔ w &&& 0xFFFF#16 = 0x5000#16) ∧
    (decodeHost w = .ok .rdccrc ↔ w &&& 0xFFFF#16 = 0x6000#16) ∧
    (decodeHost w = .ok .rderr ↔ w &&& 0xFFFF#16 = 0x7000#16) ∧
    (decodeHost w = .ok .clrerr ↔ w &&& 0xFFFF#16 = 0x8000#16) ∧
    ((w.extractLsb' 12 4 = 0#4 ∨ 9#4 ≤ w.extractLsb' 12 4) → accepted (decodeHost w) = none) ∧
    (∀ i, decodeHost w = .ok i →
      i ∈ [Instr.setup, .rdlen, .rdrxcrc, .rdccrc, .rderr, .clrerr] ∨ (∃ a, i = .capture a) ∨ ∃ a, i = .rdframe a)

/-- R57, R58 and the rows of spec/opcode_table.json for the transport port. -/
def Obligations.TransportWordsSpellTheTable : Prop :=
  ∀ w : Word16,
    (decodeTransport w = .ok .tEnable ↔ w &&& 0xFFFF#16 = 0x0000#16) ∧
    (decodeTransport w = .ok .tDisable ↔ w &&& 0xFFFF#16 = 0x1000#16) ∧
    (decodeTransport w = .ok .tAssertSelect ↔ w &&& 0xFFFF#16 = 0x2000#16) ∧
    (decodeTransport w = .ok .tDeassertSelect ↔ w &&& 0xFFFF#16 = 0x3000#16) ∧
    (∀ n, decodeTransport w = .ok (.tSetWordCount n) ↔ w &&& 0xFF00#16 = 0x4000#16 ∧ n = w.extractLsb' 0 8) ∧
    (∀ n, decodeTransport w = .ok (.tSetFifoTriggerLevel n) ↔ w &&& 0xFF00#16 = 0x5000#16 ∧ n = w.extractLsb' 0 8) ∧
    (∀ b, decodeTransport w = .ok (.tTransmit b) ↔ w &&& 0xFF00#16 = 0x6000#16 ∧ b = w.extractLsb' 0 8) ∧
    (decodeTransport w = .ok .tReceive ↔ w &&& 0xFFFF#16 = 0x7000#16) ∧
    (decodeTransport w = .ok .tTransferComplete ↔ w &&& 0xFFFF#16 = 0x8000#16) ∧
    (decodeTransport w = .ok .tInterruptStatus ↔ w &&& 0xFFFF#16 = 0x9000#16) ∧
    (∀ src, decodeTransport w = .ok (.tEnableInterrupt src) ↔
      w &&& 0xFFFE#16 = 0xA000#16 ∧ (src = .rxFull ↔ w.getLsbD 0 = true)) ∧
    (∀ src, decodeTransport w = .ok (.tDisableInterrupt src) ↔
      w &&& 0xFFFE#16 = 0xB000#16 ∧ (src = .rxFull ↔ w.getLsbD 0 = true)) ∧
    (∀ src, decodeTransport w = .ok (.tClearInterrupt src) ↔
      w &&& 0xFFFE#16 = 0xC000#16 ∧ (src = .rxFull ↔ w.getLsbD 0 = true)) ∧
    (∀ m f, decodeTransport w = .ok (.tConfigure m f) ↔
      w &&& 0xFFFC#16 = 0xD000#16 ∧ (m = .rxOnly ↔ w.getLsbD 0 = true) ∧ (f = true ↔ w.getLsbD 1 = true)) ∧
    (14#4 ≤ w.extractLsb' 12 4 → accepted (decodeTransport w) = none)

/-- R55: which command words are illegal, and what accepting one does: MALFORMED, no port operation, no state. -/
def Obligations.IllegalCommandWords : Prop :=
  (∀ w : Word16, accepted (decodeHost w) = none ↔
    (w.extractLsb' 12 4 = 0x0#4 ∨ 0x9#4 ≤ w.extractLsb' 12 4) ∨ w.extractLsb' 8 4 ≠ 0#4 ∨
    (w.extractLsb' 12 4 ∈ [0x1#4, 0x4#4, 0x5#4, 0x6#4, 0x7#4, 0x8#4] ∧ w.extractLsb' 0 8 ≠ 0x00#8)) ∧
  (∀ (s : State) (w : Word16) (ws : List Word16),
    s.turn = .run → s.atRest → s.cmds = w :: ws → accepted (decodeHost w) = none →
    step s = .next { s.afterTurn with cmds := ws, responses := s.responses ++ [0x2000#16] })

/-- R52, R54: the fields of a response word, and the numbers of the five status codes. -/
def Obligations.ResponseWordLayout : Prop :=
  (∀ (st : Status) (d : Byte),
    (responseWord st d).extractLsb' 12 4 = st.code ∧ (responseWord st d).extractLsb' 8 4 = 0#4 ∧
    (responseWord st d).extractLsb' 0 8 = d) ∧
  Status.code .ok = 0x0#4 ∧ Status.code .fail = 0x1#4 ∧ Status.code .malformed = 0x2#4 ∧
  Status.code .timeout = 0x3#4 ∧ Status.code .configErr = 0x4#4

/-- Words of all three ports, written out bit by bit from the spec's encodings. -/
def Obligations.WrittenWordsDecode : Prop :=
  decode (.host 0b0001000000000000#16) = .ok .setup ∧
  decode (.host 0b0010000001100100#16) = .ok (.capture 0x64#8) ∧
  decode (.host 0b0011000000000010#16) = .ok (.rdframe 2#8) ∧
  decode (.host 0b1000000000000000#16) = .ok .clrerr ∧
  decode (.request (.transport 0b0100000000000011#16)) = .ok (.tSetWordCount 3#8) ∧
  decode (.request (.transport 0b0110000001100100#16)) = .ok (.tTransmit 0x64#8) ∧
  decode (.request (.transport 0b1010000000000001#16)) = .ok (.tEnableInterrupt .rxFull) ∧
  decode (.request (.transport 0b1101000000000011#16)) = .ok (.tConfigure .rxOnly true) ∧
  decode (.request (.delay 5)) = .ok (.dWaitTicks 5)

/-! ### The step -/

/-- A word the host presents stands behind those not yet accepted; the word at the head of the port of a block at rest
is accepted and run by `exec` (R80, R81). -/
def Obligations.StepRunsAcceptedCommand : Prop :=
  (∀ (s : State) (w : Word16), s.turn = .present w →
    step s = .next { s.afterTurn with cmds := s.cmds ++ [w] }) ∧
  (∀ (s : State) (w : Word16) (ws : List Word16) (i : Instr),
    s.turn = .run → s.atRest → s.cmds = w :: ws → decodeHost w = .ok i →
    step s = exec i { s.afterTurn with cmds := ws })

/-- The request presented by the context that has the processor is run by `exec`, then that context goes on from its
place (R130; the handler's request stands before the sequencer's, R160). -/
def Obligations.StepRunsPresentedRequest : Prop :=
  ∀ (s : State) (r : Request) (i : Instr), s.turn = .run → decodeRequest r = .ok i →
    (s.hdl = .idle → s.delayBusy = false → s.sreq = some r →
      step s = andThen (exec i s.afterTurn) seqResume) ∧
    (s.hdl ≠ .idle → s.hreq = some r → step s = andThen (exec i s.afterTurn) hdlResume)

/-! ### Host operations -/

/-- R4: the predicate `cfg_ok`. -/
def Obligations.ConfigurationWellFormed : Prop :=
  ∀ cfg : Config, cfgOk cfg = true ↔
    2 ≤ cfg.frameCap ∧ cfg.frameCap ≤ 255 ∧
    (∀ id d, cfg.cmd.lookup id = some d →
      2 ≤ d.rlen ∧ d.rlen ≤ cfg.frameCap ∧ d.settle < 2 ^ cfg.tickW ∧ (cfg.mode = .rxOnly → d.code = none)) ∧
    (cfg.waitLimit = none ∨ ∃ n, cfg.waitLimit = some n ∧ 1 ≤ n)

/-- R83: CONFIG_ERR with nothing issued for a configuration that is not well formed; else `configure` is presented with
the channel mode and the FIFO switch of the build, and its reply decides between OK with `configured` set, and
CONFIG_ERR with `configured` as it was. First what the operation itself does, then the whole run. The count of steps is
the model's (log 3). -/
def Obligations.SetupConfiguresTransport : Prop :=
  (∀ s : State,
    (cfgOk s.cfg = false → exec .setup s = .next { s with responses := s.responses ++ [0x4000#16] }) ∧
    (cfgOk s.cfg = true → exec .setup s = .next { s with
      seq := .configure
      sreq := some (.transport (0xD000#16 ||| (if s.cfg.mode = .rxOnly then 0x0001#16 else 0x0000#16) |||
        (if s.cfg.discipline = .interrupt then 0x0002#16 else 0x0000#16))) })) ∧
  (∀ (s : State) (ws : List Word16) (ts : List Turn) (b : Byte) (bs : List Byte),
    s.atRest → s.cmds = 0x1000#16 :: ws →
    (cfgOk s.cfg = false → s.turns = .run :: ts →
      runSteps 1 s = .next { s with turns := ts, cmds := ws, responses := s.responses ++ [0x4000#16] }) ∧
    (cfgOk s.cfg = true → s.turns = .run :: .run :: ts → s.replies = b :: bs →
      runSteps 2 s = .next { s with
        turns := ts
        replies := bs
        cmds := ws
        tqRd := b
        configured := if b.getLsbD 0 then true else s.configured
        trace := s.trace ++ [asked (.tConfigure s.cfg.mode (decide (s.cfg.discipline = .interrupt))) b]
        responses := s.responses ++ [if b.getLsbD 0 then 0x0000#16 else 0x4000#16] }))

/-- R84, R155: the checks of CAPTURE in their order, and the first act of the transaction it begins (R101). -/
def Obligations.CaptureChecksThenBegins : Prop :=
  ∀ (a : Byte) (s : State),
    (s.configured = false →
      exec (.capture a) s = .next { s with responses := s.responses ++ [0x4000#16] }) ∧
    (s.configured = true → s.cfg.cmd.lookup a = none →
      exec (.capture a) s = .next { s with responses := s.responses ++ [0x2000#16] }) ∧
    (∀ d, s.configured = true → s.cfg.cmd.lookup a = some d →
      exec (.capture a) s = .next { s with
        dCid := a
        dHascode := d.code.isSome
        dCode := d.code.getD s.dCode
        dSettle := d.settle
        fLength := d.rlen
        seq := .setWordCount
        sreq := some (.transport (0x4000#16 ||| (BitVec.ofNat 8 d.rlen).setWidth 16)) })

/-- R86: RDFRAME answers the byte at its address, or MALFORMED at or above the frame's length. At rest, in a state with
the invariant, it completes at every address: each address below the length holds a byte (R26). -/
def Obligations.ReadFrameAnswersByte : Prop :=
  ∀ (a : Byte) (s : State),
    (s.fLength ≤ a.toNat →
      exec (.rdframe a) s = .next { s with responses := s.responses ++ [0x2000#16] }) ∧
    (∀ b, a.toNat < s.fLength → a.toNat < s.cfg.frameCap → Memory.read s.fBytes a.toNat = some b →
      exec (.rdframe a) s = .next { s with responses := s.responses ++ [b.setWidth 16] }) ∧
    (s.Inv → s.seq = .rest → a.toNat < s.fLength →
      ∃ b, Memory.read s.fBytes a.toNat = some b ∧
        exec (.rdframe a) s = .next { s with responses := s.responses ++ [b.setWidth 16] })

/-- R87 to R90: the four accessors without an operand answer their register with status OK and write nothing else. F.length
is an 8-bit register (R12); reading the sticky flag does not clear it. -/
def Obligations.AccessorsAnswerRegisters : Prop :=
  ∀ s : State,
    (s.fLength ≤ 255 →
      exec .rdlen s = .next { s with responses := s.responses ++ [BitVec.ofNat 16 s.fLength] }) ∧
    exec .rdrxcrc s = .next { s with responses := s.responses ++ [s.receivedCRC.setWidth 16] } ∧
    exec .rdccrc s = .next { s with responses := s.responses ++ [s.computedCRC.setWidth 16] } ∧
    (s.errorFlag = .ok → exec .rderr s = .next { s with responses := s.responses ++ [0x0000#16] }) ∧
    (s.errorFlag = .fail → exec .rderr s = .next { s with responses := s.responses ++ [0x0001#16] })

/-- R91: CLRERR clears the flag, answers OK, and writes nothing else. -/
def Obligations.ClearErrorClearsFlagOnly : Prop :=
  ∀ s : State, exec .clrerr s = .next { s with errorFlag := .ok, responses := s.responses ++ [0x0000#16] }

/-- R11: cells at or above the frame's length are not observable. Host operations and validation do the same on two
buffers that agree below it. -/
def Obligations.StaleCellsUnobservable : Prop :=
  ∀ (s : State) (m : List Host.Cell),
    (∀ k, k < s.fLength → Memory.read m k = Memory.read s.fBytes k) →
    (∀ w i, decodeHost w = .ok i →
      exec i { s with fBytes := m } = onNext (fun t => { t with fBytes := m }) (exec i s)) ∧
    seqValidate { s with fBytes := m } = onNext (fun t => { t with fBytes := m }) (seqValidate s)

/-- R30 (log 8, log 9): the frame primitives refuse an address at or above the capacity; a read of a cell that nothing
has written since reset faults. -/
def Obligations.FrameAddressesRefused : Prop :=
  ∀ (s : State) (a : Nat) (v : Byte),
    (s.cfg.frameCap ≤ a →
      memRead s a = .refused .frameAddressOutOfRange ∧ memWrite s a v = .refused .frameAddressOutOfRange) ∧
    (a < s.cfg.frameCap → Memory.read s.fBytes a = none → memRead s a = .fault .unwrittenFrameByte)

/-! ### Port operations -/

/-- The eight requests without a reply: each enters the history of its context with its argument and changes nothing
else of the block. -/
def Obligations.RequestsWithoutReply : Prop :=
  ∀ (s : State) (i : Instr),
    (i ∈ [Instr.tEnable, .tDisable, .tAssertSelect, .tDeassertSelect] ∨ (∃ n, i = .tSetWordCount n) ∨
      (∃ n, i = .tSetFifoTriggerLevel n) ∨ (∃ b, i = .tTransmit b) ∨ ∃ src, i = .tClearInterrupt src) →
    exec i s = .next { s with
      trace := s.trace ++ [⟨if s.hdl = .idle then .calling else .interrupt, i, none⟩] }

/-- The four requests with a reply: the reply, any byte the environment gives, stands in tq_rd and in the history. Past
the end of the environment's replies it is the free value of log 1, whatever that is. -/
def Obligations.RequestsWithReply : Prop :=
  ∀ (s : State) (i : Instr),
    (i ∈ [Instr.tReceive, .tTransferComplete, .tInterruptStatus] ∨ ∃ m f, i = .tConfigure m f) →
    (∀ b bs, s.replies = b :: bs →
      exec i s = .next { s with
        replies := bs
        tqRd := b
        trace := s.trace ++ [⟨if s.hdl = .idle then .calling else .interrupt, i, some b⟩] }) ∧
    (s.replies = [] →
      exec i s = .next { s with
        draws := s.draws + 1
        tqRd := Config.freeReply s.draws
        trace := s.trace ++
          [⟨if s.hdl = .idle then .calling else .interrupt, i, some (Config.freeReply s.draws)⟩] })

/-- R141, R142, R20: enabling a source sets its arm bit, disabling it clears the bit, and nothing else changes. -/
def Obligations.EnableAndDisableWriteArmBit : Prop :=
  ∀ s : State, ∀ c, c = (if s.hdl = .idle then Context.calling else .interrupt) →
    exec (.tEnableInterrupt .txEmpty) s =
      .next { s with armTx := true, trace := s.trace ++ [⟨c, .tEnableInterrupt .txEmpty, none⟩] } ∧
    exec (.tEnableInterrupt .rxFull) s =
      .next { s with armRx := true, trace := s.trace ++ [⟨c, .tEnableInterrupt .rxFull, none⟩] } ∧
    exec (.tDisableInterrupt .txEmpty) s =
      .next { s with armTx := false, trace := s.trace ++ [⟨c, .tDisableInterrupt .txEmpty, none⟩] } ∧
    exec (.tDisableInterrupt .rxFull) s =
      .next { s with armRx := false, trace := s.trace ++ [⟨c, .tDisableInterrupt .rxFull, none⟩] }

/-- R145: a delay request goes out with its tick count, the sequencer takes no step before *done*, and *done* ends the
delay and does nothing else. -/
def Obligations.DelayHoldsSequencer : Prop :=
  (∀ (s : State) (n : Nat), exec (.dWaitTicks n) s = .next { s with
    delayBusy := true
    trace := s.trace ++ [⟨if s.hdl = .idle then .calling else .interrupt, .dWaitTicks n, none⟩] }) ∧
  (∀ s : State, s.hdl = .idle → s.delayBusy = true → s.turn = .run → step s = .next s.afterTurn) ∧
  (∀ s : State, s.turn = .delayDone → step s = .next { s.afterTurn with delayBusy := false })

/-- R20: an arm bit is 1 exactly when the history has enabled its source and not disabled it since. Every step but a
reset keeps that. -/
def Obligations.ArmBitsMirrorHistory : Prop :=
  ∀ s t : State, s.turn ≠ .reset → step s = .next t →
    s.armTx = armedBy .txEmpty s.trace → s.armRx = armedBy .rxFull s.trace →
    t.armTx = armedBy .txEmpty t.trace ∧ t.armRx = armedBy .rxFull t.trace

/-! ### The acquisition protocol -/

/-- R101: transition 1, from the acceptance of a CAPTURE to CONFIGURED, in both disciplines. The count of steps is the
model's (log 3). -/
def Obligations.TransitionOne : Prop :=
  ∀ (s : State) (w : Word16) (ws : List Word16) (ts : List Turn) (a : Byte) (d : Descriptor),
    s.atRest → s.cmds = w :: ws → decodeHost w = .ok (.capture a) → s.configured = true →
    s.cfg.cmd.lookup a = some d →
    (s.cfg.discipline = .polling → s.turns = runs 3 ++ ts →
      runSteps 3 s = .next { s with
        turns := ts
        cmds := ws
        dCid := a
        dHascode := d.code.isSome
        dCode := d.code.getD s.dCode
        dSettle := d.settle
        fLength := d.rlen
        trace := s.trace ++ [called (.tSetWordCount (BitVec.ofNat 8 d.rlen)), called .tEnable]
        pstate := .configured
        seq := .assertSelect
        sreq := some (.transport 0x2000#16) }) ∧
    (s.cfg.discipline = .interrupt → s.turns = runs 4 ++ ts →
      runSteps 4 s = .next { s with
        turns := ts
        cmds := ws
        dCid := a
        dHascode := d.code.isSome
        dCode := d.code.getD s.dCode
        dSettle := d.settle
        fLength := d.rlen
        trace := s.trace ++ [called (.tSetWordCount (BitVec.ofNat 8 d.rlen)),
          called (.tSetFifoTriggerLevel (BitVec.ofNat 8 d.rlen)), called .tEnable]
        pstate := .configured
        seq := .assertSelect
        sreq := some (.transport 0x2000#16) })

/-- R102: transition 2. However long the delay service takes (`k` turns of the processor), the sequencer takes no step
before *done*. The count of steps is the model's (log 3). -/
def Obligations.TransitionTwo : Prop :=
  ∀ (s : State) (k : Nat) (ts : List Turn),
    s.standsAt .assertSelect → s.turns = runs 2 ++ runs k ++ [.delayDone, .run] ++ ts →
    runSteps (k + 4) s = .next { s with
      turns := ts
      trace := s.trace ++ [called .tAssertSelect, called (.dWaitTicks s.dSettle)]
      pstate := .csAsserted
      seq := .opening
      sreq := none }

/-- R103, R106: the body of transition 3 is chosen by the build alone; the polling bodies clear `idx` and present their
first transmit, which carries the command byte only in TXRX. -/
def Obligations.TransferOpens : Prop :=
  ∀ s : State, s.turn = .run → s.standsAt .opening → 0 < s.fLength →
    (s.cfg.discipline = .polling → s.cfg.mode = .txrx →
      step s = .next { s.afterTurn with
        pstate := .transferring
        idx := 0
        seq := .transmit
        sreq := some (.transport (0x6000#16 |||
          (if s.dHascode = true then s.dCode else s.cfg.placeholder).setWidth 16)) }) ∧
    (s.cfg.discipline = .polling → s.cfg.mode = .rxOnly →
      step s = .next { s.afterTurn with
        pstate := .transferring
        idx := 0
        seq := .transmit
        sreq := some (.transport (0x6000#16 ||| s.cfg.placeholder.setWidth 16)) }) ∧
    (s.cfg.discipline = .interrupt →
      step s = .next { s.afterTurn with
        pstate := .transferring
        ready := false
        seq := .enableTx
        sreq := some (.transport 0xA000#16) })

/-- R108, R183: the interrupt discipline clears `ready`, then enables TX_EMPTY, then RX_FULL, and only then waits. From
the first enable on a delivery enters the handler, also between the two enables. The count of steps is the model's (log
3), and that a delivery is a step of its own (log 4). -/
def Obligations.ArmingClearsReadyFirst : Prop :=
  ∀ (s : State) (ts : List Turn), s.standsAt .opening → s.cfg.discipline = .interrupt →
    (s.turns = runs 3 ++ ts →
      runSteps 3 s = .next { s with
        turns := ts
        pstate := .transferring
        ready := false
        armTx := true
        armRx := true
        wcnt := 0
        trace := s.trace ++ [called (.tEnableInterrupt .txEmpty), called (.tEnableInterrupt .rxFull)]
        seq := .watch
        sreq := none }) ∧
    (s.turns = runs 2 ++ .interrupt :: ts →
      runSteps 3 s = .next { s with
        turns := ts
        pstate := .transferring
        ready := false
        armTx := true
        trace := s.trace ++ [called (.tEnableInterrupt .txEmpty)]
        seq := .enableRx
        sreq := some (.transport 0xA001#16)
        irqPending := false
        hdl := .status
        hreq := some (.transport 0x9000#16) })

/-- R104, R105: one exchange of a transmit/receive transfer: transmit, wait, receive, store. The count of steps is the
model's (log 3). -/
def Obligations.TxrxExchange : Prop :=
  ∀ (s : State) (w : WordReplies) (ts : List Turn) (rs : List Byte),
    s.standsAt .transmit → s.cfg.mode = .txrx → s.idx < s.fLength → s.fLength ≤ s.cfg.frameCap →
    w.valid s.cfg.waitLimit → s.turns = runs (w.failed.length + 3) ++ ts → s.replies = w.replies ++ rs →
    runSteps (w.failed.length + 3) s = .next ({ s with
      turns := ts
      replies := rs
      tqRd := w.byte
      fBytes := Memory.write s.fBytes s.idx w.byte
      idx := s.idx + 1
      wcnt := if s.cfg.waitLimit.isSome then w.failed.length else 0
      trace := s.trace ++ w.exchange (if s.idx = 0 ∧ s.dHascode = true then s.dCode else s.cfg.placeholder)
      }.goTo (if s.idx + 1 < s.fLength then .transmit else .deassertSelect))

/-- R106, R107: the fill of a receive-only transfer, and one byte of its loop or its final read. The last byte is read
without a status read unless FINAL_READ_POLL. The count of steps is the model's (log 3). -/
def Obligations.ReceiveOnlyBytes : Prop :=
  ∀ (s : State) (ts : List Turn) (rs : List Byte), s.cfg.mode = .rxOnly → s.fLength ≤ s.cfg.frameCap →
    (s.standsAt .transmit → s.idx = 0 → 2 ≤ s.fLength → s.turns = .run :: ts →
      runSteps 1 s = .next ({ s with
        turns := ts
        wcnt := 0
        trace := s.trace ++ [called (.tTransmit s.cfg.placeholder)] }.goTo .observe)) ∧
    (∀ w : WordReplies, s.standsAt .observe → s.wcnt = 0 → s.idx < s.fLength → w.valid s.cfg.waitLimit →
      s.turns = runs (w.failed.length + 2) ++ ts → s.replies = w.replies ++ rs →
      ∃ n, runSteps (w.failed.length + 2) s = .next ({ s with
        turns := ts
        replies := rs
        tqRd := w.byte
        fBytes := Memory.write s.fBytes s.idx w.byte
        idx := s.idx + 1
        wcnt := n
        trace := s.trace ++ w.statusReads ++ [asked .tReceive w.byte]
        }.goTo (if s.idx + 1 = s.fLength then .deassertSelect
          else if s.idx + 2 = s.fLength ∧ s.cfg.finalReadPoll = false then .receive else .observe)) ∧
        (s.idx + 2 < s.fLength → n = 0)) ∧
    (∀ b, s.standsAt .receive → s.idx + 1 = s.fLength → s.turns = .run :: ts → s.replies = b :: rs →
      runSteps 1 s = .next ({ s with
        turns := ts
        replies := rs
        tqRd := b
        fBytes := Memory.write s.fBytes s.idx b
        idx := s.idx + 1
        trace := s.trace ++ [asked .tReceive b] }.goTo .deassertSelect))

/-- R112, R186: failed observations of a polling wait are made again, one status read each, as long as WAIT_LIMIT is
not reached; without a limit for ever. Nothing else of the block changes, and `pstate` stays TRANSFERRING. One step for
each read is the model's (log 3). -/
def Obligations.FailedReadsAreRepeated : Prop :=
  ∀ (s : State) (fs : List Byte) (ts : List Turn) (rs : List Byte),
    s.standsAt .observe → (∀ b ∈ fs, b.getLsbD 0 = false) → s.turns = runs fs.length ++ ts → s.replies = fs ++ rs →
    (∀ n, s.cfg.waitLimit = some n → s.wcnt + fs.length < n) →
    runSteps fs.length s = .next { s with
      turns := ts
      replies := rs
      tqRd := fs.getLast?.getD s.tqRd
      wcnt := if s.cfg.waitLimit.isSome then s.wcnt + fs.length else s.wcnt
      trace := s.trace ++ fs.map (asked .tTransferComplete) }

/-- R109, R112: one observation of the interrupt wait. It is no port operation; it ends the wait when `ready` is 1, and
then RX_FULL is disarmed and the whole frame is in the buffer. -/
def Obligations.ReadyEndsInterruptWait : Prop :=
  ∀ s : State, s.Inv → s.turn = .run → s.hdl = .idle → s.seq = .watch →
    (s.ready = true →
      step s = .next { s.afterTurn with seq := .deassertSelect, sreq := some (.transport 0x3000#16) } ∧
      s.armRx = false ∧ Memory.filled s.fBytes s.fLength) ∧
    (s.ready = false → s.cfg.waitLimit = none → step s = .next s.afterTurn) ∧
    (∀ n, s.ready = false → s.cfg.waitLimit = some n → s.wcnt + 1 < n →
      step s = .next { s.afterTurn with wcnt := s.wcnt + 1 })

/-- R113: the observation that exhausts WAIT_LIMIT starts the timeout sequence, in both disciplines: the requests in
their order, then the length cleared, IDLE, and the response TIMEOUT. The diagnostics, the sticky flag, `ready` (even
if the handler set it after the last observation) and `configured` are as they were. The count of steps is the model's
(log 3). -/
def Obligations.TimeoutSequence : Prop :=
  (∀ (s : State) (n : Nat) (b : Byte) (ts : List Turn) (rs : List Byte),
    s.cfg.waitLimit = some n → s.wcnt + 1 = n → s.standsAt .observe → s.cfg.discipline = .polling →
    b.getLsbD 0 = false → s.turns = runs 3 ++ ts → s.replies = b :: rs →
    runSteps 3 s = .next { s with
      turns := ts
      replies := rs
      tqRd := b
      wcnt := n
      trace := s.trace ++ [asked .tTransferComplete b, called .tDeassertSelect, called .tDisable]
      fLength := 0
      pstate := .idle
      seq := .rest
      sreq := none
      responses := s.responses ++ [0x3000#16] }) ∧
  (∀ (s : State) (n : Nat),
    s.cfg.waitLimit = some n → s.wcnt + 1 = n → s.standsAt .watch → s.cfg.discipline = .interrupt →
    s.ready = false → s.turn = .run →
    step s = .next { s.afterTurn with wcnt := n, seq := .toDisableTx, sreq := some (.transport 0xB000#16) }) ∧
  (∀ (s : State) (ts : List Turn), s.standsAt .toDisableTx → s.turns = runs 4 ++ ts →
    runSteps 4 s = .next { s with
      turns := ts
      armTx := false
      armRx := false
      trace := s.trace ++ [called (.tDisableInterrupt .txEmpty), called (.tDisableInterrupt .rxFull),
        called .tDeassertSelect, called .tDisable]
      fLength := 0
      pstate := .idle
      seq := .rest
      sreq := none
      responses := s.responses ++ [0x3000#16] })

/-- R110: transition 4: chip-select first, channel second. The count of steps is the model's (log 3). -/
def Obligations.TransitionFour : Prop :=
  ∀ (s : State) (ts : List Turn), s.standsAt .deassertSelect → s.turns = runs 2 ++ ts →
    runSteps 2 s = .next { s with
      turns := ts
      trace := s.trace ++ [called .tDeassertSelect, called .tDisable]
      pstate := .csDeasserted
      seq := .validate
      sreq := none }

/-- R111, R75, R76: transition 5: validation writes the diagnostics and the sticky flag and enters VALIDATED; the
response, FAIL iff the check failed, returns the block to IDLE. No port operation. That VALIDATED is a step of its own
is the model's (log 16), and so is the count of steps (log 3). -/
def Obligations.TransitionFive : Prop :=
  ∀ (s : State) (payload : List Byte) (last : Byte) (ts : List Turn),
    s.standsAt .validate → payload ≠ [] → s.fLength = payload.length + 1 → s.fLength ≤ s.cfg.frameCap →
    Memory.holds s.fBytes s.fBytes (payload ++ [last]) →
    (∀ u, s.turns = .run :: u →
      step s = .next { s with
        turns := u
        receivedCRC := ~~~last
        computedCRC := crcTextbook payload
        errorFlag := if ~~~last = crcTextbook payload then s.errorFlag else .fail
        pstate := .validated
        seq := .respond }) ∧
    (s.turns = runs 2 ++ ts →
      runSteps 2 s = .next { s with
        turns := ts
        receivedCRC := ~~~last
        computedCRC := crcTextbook payload
        errorFlag := if ~~~last = crcTextbook payload then s.errorFlag else .fail
        pstate := .idle
        seq := .rest
        responses := s.responses ++ [if ~~~last = crcTextbook payload then 0x0000#16 else 0x1000#16] })

/-- A whole CAPTURE in POLLING and TXRX, from acceptance to response (R84, R101 to R105, R110, R111, R114): for every
descriptor, every number of failed status reads below WAIT_LIMIT, every received frame. The count of steps is the
model's (log 3). -/
def Obligations.CaptureRunsTxrx : Prop :=
  ∀ (s : State) (a : Byte) (cs : List Word16) (d : Descriptor) (w : WordReplies) (more : List WordReplies)
    (ts : List Turn) (rs : List Byte),
    s.Inv → s.atRest → s.cmds = (0x2000#16 ||| a.setWidth 16) :: cs → s.configured = true →
    s.cfg.cmd.lookup a = some d → s.cfg.discipline = .polling → s.cfg.mode = .txrx →
    (w :: more).length = d.rlen → (∀ x ∈ w :: more, x.valid s.cfg.waitLimit) →
    s.turns = runs 5 ++ .delayDone :: runs (((w :: more).map fun x => x.failed.length + 3).sum + 6) ++ ts →
    s.replies = (w :: more).flatMap WordReplies.replies ++ rs →
    ∃ t, runSteps (((w :: more).map fun x => x.failed.length + 3).sum + 12) s = .next t ∧
      t.trace = s.trace ++
        [called (.tSetWordCount (BitVec.ofNat 8 d.rlen)), called .tEnable, called .tAssertSelect,
          called (.dWaitTicks d.settle)] ++
        w.exchange (d.code.getD s.cfg.placeholder) ++ more.flatMap (fun x => x.exchange s.cfg.placeholder) ++
        [called .tDeassertSelect, called .tDisable] ∧
      Memory.holds t.fBytes s.fBytes ((w :: more).map (·.byte)) ∧ t.fLength = d.rlen ∧
      t.receivedCRC = ~~~((w :: more).getLast (by simp)).byte ∧
      t.computedCRC = crcTextbook ((w :: more).map (·.byte)).dropLast ∧
      t.errorFlag = stickyAfter s.errorFlag (frameVerdict ((w :: more).map (·.byte))) ∧
      t.responses = s.responses ++
        [if frameVerdict ((w :: more).map (·.byte)) = .ok then 0x0000#16 else 0x1000#16] ∧
      t.atRest ∧ t.Inv ∧ t.turns = ts ∧ t.replies = rs ∧ t.cmds = cs ∧ t.cfg = s.cfg ∧
      t.configured = true ∧ t.ready = s.ready ∧ t.armTx = s.armTx ∧ t.armRx = s.armRx

/-- A whole CAPTURE in POLLING and RX_ONLY (R84, R101 to R103, R106, R107, R110, R111, R114, R187): one fill, a status
wait before each byte but the last, and one before the last only if FINAL_READ_POLL. The count of steps is the model's
(log 3). -/
def Obligations.CaptureRunsRxOnly : Prop :=
  ∀ (s : State) (a : Byte) (cs : List Word16) (d : Descriptor) (loop : List WordReplies) (final : WordReplies)
    (ts : List Turn) (rs : List Byte) (poll : Bool),
    s.Inv → s.atRest → s.cmds = (0x2000#16 ||| a.setWidth 16) :: cs → s.configured = true →
    s.cfg.cmd.lookup a = some d → s.cfg.discipline = .polling → s.cfg.mode = .rxOnly → s.cfg.finalReadPoll = poll →
    loop.length + 1 = d.rlen → (∀ x ∈ loop ++ [final], x.valid s.cfg.waitLimit) →
    s.turns = runs 5 ++ .delayDone ::
      runs ((loop.map fun x => x.failed.length + 2).sum + (if poll then final.failed.length + 1 else 0) + 8) ++ ts →
    s.replies = loop.flatMap WordReplies.replies ++ (if poll then final.failed ++ [final.done] else []) ++
      final.byte :: rs →
    ∃ t, runSteps
        ((loop.map fun x => x.failed.length + 2).sum + (if poll then final.failed.length + 1 else 0) + 14) s =
        .next t ∧
      t.trace = s.trace ++
        [called (.tSetWordCount (BitVec.ofNat 8 d.rlen)), called .tEnable, called .tAssertSelect,
          called (.dWaitTicks d.settle), called (.tTransmit s.cfg.placeholder)] ++
        loop.flatMap (fun x => x.statusReads ++ [asked .tReceive x.byte]) ++
        (if poll then final.statusReads else []) ++
        [asked .tReceive final.byte, called .tDeassertSelect, called .tDisable] ∧
      Memory.holds t.fBytes s.fBytes ((loop ++ [final]).map (·.byte)) ∧ t.fLength = d.rlen ∧
      t.receivedCRC = ~~~final.byte ∧ t.computedCRC = crcTextbook (loop.map (·.byte)) ∧
      t.errorFlag = stickyAfter s.errorFlag (frameVerdict ((loop ++ [final]).map (·.byte))) ∧
      t.responses = s.responses ++
        [if frameVerdict ((loop ++ [final]).map (·.byte)) = .ok then 0x0000#16 else 0x1000#16] ∧
      t.atRest ∧ t.Inv ∧ t.turns = ts ∧ t.replies = rs ∧ t.cmds = cs ∧ t.cfg = s.cfg ∧
      t.configured = true ∧ t.ready = s.ready ∧ t.armTx = s.armTx ∧ t.armRx = s.armRx

/-- A whole CAPTURE in the INTERRUPT discipline (R84, R101 to R103, R108 to R111, R114, R158, R160 to R163), with one
delivery that reports TX_EMPTY after `j` observations and one that reports RX_FULL after `k` more. The count of steps
is the model's (log 3, log 4). -/
def Obligations.CaptureRunsInterrupt : Prop :=
  ∀ (s : State) (a : Byte) (cs : List Word16) (d : Descriptor) (bytes : List Byte) (j k : Nat) (st1 st2 : Byte)
    (ts : List Turn) (rs : List Byte),
    s.Inv → s.atRest → s.cmds = (0x2000#16 ||| a.setWidth 16) :: cs → s.configured = true →
    s.cfg.cmd.lookup a = some d → s.cfg.discipline = .interrupt → bytes.length = d.rlen →
    (∀ n, s.cfg.waitLimit = some n → j + k < n) →
    st1.getLsbD 0 = true → st1.getLsbD 1 = false → st2.getLsbD 1 = true →
    s.turns = runs 6 ++ .delayDone :: runs (j + 4) ++ .interrupt :: runs (k + 4) ++
      .interrupt :: runs (bytes.length + 8) ++ ts →
    s.replies = st1 :: st2 :: bytes ++ rs →
    ∃ t, runSteps (j + k + bytes.length + 25) s = .next t ∧
      t.trace = s.trace ++
        [called (.tSetWordCount (BitVec.ofNat 8 d.rlen)), called (.tSetFifoTriggerLevel (BitVec.ofNat 8 d.rlen)),
          called .tEnable, called .tAssertSelect, called (.dWaitTicks d.settle),
          called (.tEnableInterrupt .txEmpty), called (.tEnableInterrupt .rxFull),
          hAsked .tInterruptStatus st1, hCalled (.tTransmit (d.code.getD s.cfg.placeholder)),
          hCalled (.tDisableInterrupt .txEmpty), hCalled (.tClearInterrupt .txEmpty),
          hAsked .tInterruptStatus st2] ++ bytes.map (hAsked .tReceive) ++
        [hCalled (.tDisableInterrupt .rxFull), hCalled (.tClearInterrupt .rxFull),
          called .tDeassertSelect, called .tDisable] ∧
      Memory.holds t.fBytes s.fBytes bytes ∧ t.fLength = d.rlen ∧
      t.receivedCRC = ~~~(bytes.getLast?.getD 0#8) ∧ t.computedCRC = crcTextbook bytes.dropLast ∧
      t.errorFlag = stickyAfter s.errorFlag (frameVerdict bytes) ∧
      t.responses = s.responses ++ [if frameVerdict bytes = .ok then 0x0000#16 else 0x1000#16] ∧
      t.atRest ∧ t.Inv ∧ t.turns = ts ∧ t.replies = rs ∧ t.cmds = cs ∧ t.cfg = s.cfg ∧
      t.configured = true ∧ t.ready = true ∧ t.armTx = false ∧ t.armRx = false ∧ t.idx = s.idx

/-! ### CRC and validation -/

/-- R71's checks on the table, its values at the eight powers of two, linearity and bijectivity. Linearity and the eight
values fix all 256 cells (log 12). -/
def Obligations.TableIsLinearBijection : Prop :=
  tbl 0x00#8 = 0x00#8 ∧ tbl 0x01#8 = 0x97#8 ∧ tbl 0x02#8 = 0xB9#8 ∧ tbl 0x04#8 = 0xE5#8 ∧ tbl 0x08#8 = 0x5D#8 ∧
  tbl 0x10#8 = 0xBA#8 ∧ tbl 0x20#8 = 0xE3#8 ∧ tbl 0x40#8 = 0x51#8 ∧ tbl 0x80#8 = 0xA2#8 ∧ tbl 0xFF#8 = 0x3C#8 ∧
  (∀ a b : Byte, tbl (a ^^^ b) = tbl a ^^^ tbl b) ∧ (∀ a b : Byte, tbl a = tbl b → a = b) ∧
  (∀ b : Byte, ∃ a, tbl a = b)

/-- R72, R73: `crc8` over the first `n` bytes: the seed is the first byte itself, each later byte is combined with the
table's value of the state, and the result is one more lookup. A count of zero or over the capacity is refused with
MalformedRequest, whatever the buffer. -/
def Obligations.CrcFollowsAlgorithm : Prop :=
  (∀ (cap : Nat) (b : Byte) (bs rest : List Byte), bs.length + 1 ≤ cap →
    crc8 cap (b :: bs ++ rest) (bs.length + 1) = .ok (tbl (bs.foldl (fun t x => x ^^^ tbl t) b))) ∧
  (∀ (cap : Nat) (buffer : List Byte) (n : Nat), n = 0 ∨ cap < n → crc8 cap buffer n = .error .malformedRequest)

/-- R77 (a) to (e). The checksum depends on the first `n` bytes alone, is the textbook CRC, is linear, vanishes on a
message followed by its own checksum (0x3C when complemented), and does not see leading zeros. -/
def Obligations.CrcProperties : Prop :=
  (∀ (cap n : Nat) (x y : List Byte), x.take n = y.take n → crc8 cap x n = crc8 cap y n) ∧
  (∀ (cap : Nat) (x : List Byte), x ≠ [] → x.length ≤ cap → crc8 cap x x.length = .ok (crcTextbook x)) ∧
  (∀ x y : List Byte, x.length = y.length →
    crcTextbook (x.zipWith (· ^^^ ·) y) = crcTextbook x ^^^ crcTextbook y) ∧
  (∀ x : List Byte, crcTextbook (x ++ [crcTextbook x]) = 0x00#8 ∧ crcTextbook (x ++ [~~~(crcTextbook x)]) = 0x3C#8) ∧
  (∀ x : List Byte, crcTextbook (0x00#8 :: x) = crcTextbook x)

/-- R75, R76: what `validate` does: MalformedRequest with nothing written for a length below 2 or over the capacity;
else both diagnostics are written and the flag is set iff they differ. -/
def Obligations.ValidateWritesDiagnostics : Prop :=
  ∀ s : State,
    (s.fLength < 2 ∨ s.cfg.frameCap < s.fLength → validate s = .next (.error .malformedRequest)) ∧
    (∀ payload last, payload ≠ [] → s.fLength = payload.length + 1 → s.fLength ≤ s.cfg.frameCap →
      Memory.holds s.fBytes s.fBytes (payload ++ [last]) →
      validate s = .next (.ok { s with
        receivedCRC := ~~~last
        computedCRC := crcTextbook payload
        errorFlag := if ~~~last = crcTextbook payload then s.errorFlag else .fail }))

/-! ### The interrupt -/

/-- R160, R164 (log 17): a delivery enters the handler when a source is armed in the interrupt discipline; during a run
it is remembered; otherwise nothing happens. No register of the block is saved or changed. -/
def Obligations.DeliveryEntersHandler : Prop :=
  ∀ s : State, s.turn = .interrupt →
    (s.cfg.discipline = .interrupt ∧ (s.armTx = true ∨ s.armRx = true) →
      (s.hdl = .idle → step s = .next { s.afterTurn with
        hdl := .status, hreq := some (.transport 0x9000#16), irqPending := false }) ∧
      (s.hdl ≠ .idle → step s = .next { s.afterTurn with irqPending := true })) ∧
    (¬ (s.cfg.discipline = .interrupt ∧ (s.armTx = true ∨ s.armRx = true)) → step s = .next s.afterTurn)

/-- R160, R159, R162, R163: the status reply decides what the run services: a source that is both reported and armed,
TX_EMPTY first. -/
def Obligations.StatusDecidesService : Prop :=
  ∀ (s : State) (b : Byte) (bs : List Byte), s.turn = .run → s.inHandler .status → s.replies = b :: bs →
    (b.getLsbD 0 = true → s.armTx = true →
      step s = .next { s.afterTurn with
        replies := bs
        tqRd := b
        trace := s.trace ++ [hAsked .tInterruptStatus b]
        hDoRx := b.getLsbD 1 && s.armRx
        hdl := .txTransmit
        hreq := some (.transport (0x6000#16 |||
          (if s.dHascode = true then s.dCode else s.cfg.placeholder).setWidth 16)) }) ∧
    (¬ (b.getLsbD 0 = true ∧ s.armTx = true) → b.getLsbD 1 = true → s.armRx = true → 0 < s.fLength →
      step s = .next { s.afterTurn with
        replies := bs
        tqRd := b
        trace := s.trace ++ [hAsked .tInterruptStatus b]
        hDoRx := true
        hk := 0
        hdl := .rxReceive
        hreq := some (.transport 0x7000#16) })

/-- R166: a run that services nothing issues its one status request and returns; no register of the block changes. The
count of steps is the model's (log 4). A delivery remembered during the run: `ReturnStartsRememberedRun`. -/
def Obligations.NothingServiced : Prop :=
  ∀ (s : State) (b : Byte) (ts : List Turn) (bs : List Byte),
    s.hdl = .idle → s.hreq = none → s.irqPending = false →
    s.cfg.discipline = .interrupt → (s.armTx = true ∨ s.armRx = true) →
    ¬ (b.getLsbD 0 = true ∧ s.armTx = true) → ¬ (b.getLsbD 1 = true ∧ s.armRx = true) →
    s.turns = .interrupt :: .run :: ts → s.replies = b :: bs →
    runSteps 2 s = .next { s with
      turns := ts
      replies := bs
      tqRd := b
      hDoRx := false
      trace := s.trace ++ [hAsked .tInterruptStatus b] }

/-- R162: servicing TX_EMPTY: one transmit, the disable with the arm bit cleared, the clear; then the run returns, or
goes on to RX_FULL when that is to be serviced too. The count of steps is the model's (log 4). A delivery remembered
during the run: `ReturnStartsRememberedRun`. -/
def Obligations.TransmitServiceRuns : Prop :=
  ∀ (s : State) (ts : List Turn), s.inHandler .txTransmit → s.turns = runs 3 ++ ts →
    (s.hDoRx = false → s.irqPending = false →
      runSteps 3 s = .next { s with
        turns := ts
        trace := s.trace ++ [hCalled (.tTransmit (if s.dHascode = true then s.dCode else s.cfg.placeholder)),
          hCalled (.tDisableInterrupt .txEmpty), hCalled (.tClearInterrupt .txEmpty)]
        armTx := false
        hdl := .idle
        hreq := none }) ∧
    (s.hDoRx = true → 0 < s.fLength →
      runSteps 3 s = .next { s with
        turns := ts
        trace := s.trace ++ [hCalled (.tTransmit (if s.dHascode = true then s.dCode else s.cfg.placeholder)),
          hCalled (.tDisableInterrupt .txEmpty), hCalled (.tClearInterrupt .txEmpty)]
        armTx := false
        hk := 0
        hdl := .rxReceive
        hreq := some (.transport 0x7000#16) })

/-- R163, R31: servicing RX_FULL drains exactly F.length bytes into the buffer in the order received, disables the
source, clears it, and sets `ready` last, whatever the length. The count of steps is the model's (log 4). A delivery
remembered during the run: `ReturnStartsRememberedRun`. -/
def Obligations.DrainServiceRuns : Prop :=
  ∀ (s : State) (bytes : List Byte) (ts : List Turn) (rs : List Byte),
    s.inHandler .rxReceive → s.hk = 0 → bytes ≠ [] → bytes.length = s.fLength → s.fLength ≤ s.cfg.frameCap →
    s.irqPending = false → s.turns = runs (bytes.length + 2) ++ ts → s.replies = bytes ++ rs →
    (∀ n, n < bytes.length + 2 → ∃ u, runSteps n s = .next u ∧ u.ready = s.ready) ∧
    ∃ m, Memory.holds m s.fBytes bytes ∧
      runSteps (bytes.length + 2) s = .next { s with
        turns := ts
        replies := rs
        tqRd := bytes.getLast?.getD s.tqRd
        fBytes := m
        hk := bytes.length
        trace := s.trace ++ bytes.map (hAsked .tReceive) ++
          [hCalled (.tDisableInterrupt .rxFull), hCalled (.tClearInterrupt .rxFull)]
        armRx := false
        ready := true
        hdl := .idle
        hreq := none }

/-- R164: interrupts do not nest. A run ends at one of three requests: the last of a drain, the last of a TX_EMPTY service
with no RX_FULL to follow, and the status read of a run that services nothing. At each of them a delivery remembered
during the run starts a new run if a source is still armed; else the sequencer is scheduled again exactly where it was.
That a run is several steps, and the latch, are the model's (log 4, log 5). -/
def Obligations.ReturnStartsRememberedRun : Prop :=
  ∀ s u : State, s.turn = .run → s.cfg.discipline = .interrupt →
    (s.inHandler .rxClear ∧
      u = { s.afterTurn with trace := s.trace ++ [hCalled (.tClearInterrupt .rxFull)], ready := true }) ∨
    (s.inHandler .txClear ∧ s.hDoRx = false ∧
      u = { s.afterTurn with trace := s.trace ++ [hCalled (.tClearInterrupt .txEmpty)] }) ∨
    (∃ b bs, s.inHandler .status ∧ s.replies = b :: bs ∧ ¬ (b.getLsbD 0 = true ∧ s.armTx = true) ∧
      ¬ (b.getLsbD 1 = true ∧ s.armRx = true) ∧
      u = { s.afterTurn with
        replies := bs, tqRd := b, hDoRx := false, trace := s.trace ++ [hAsked .tInterruptStatus b] }) →
    (s.irqPending = true → (s.armTx = true ∨ s.armRx = true) →
      step s = .next { u with irqPending := false, hdl := .status, hreq := some (.transport 0x9000#16) }) ∧
    (s.irqPending = false ∨ (s.armTx = false ∧ s.armRx = false) →
      step s = .next { u with irqPending := false, hdl := .idle, hreq := none })

/-- R161, R160, R165: a step of the handler neither reads nor writes `pstate`, `idx`, `wcnt`, d_cid, d_settle, the
diagnostics, the sticky flag, `configured`, or anything the sequencer has presented: changing them before the step and
after it is the same. It writes neither F.length nor the descriptor's code; it does not read `ready` or the frame buffer,
which it writes; and it issues its five operations only. -/
def Obligations.HandlerTouchesOnlyItsOwn : Prop :=
  ∀ (s : State), s.hdl ≠ .idle → s.hreq = (hdlRequest s s.hdl).bind requestOf → s.turn = .run →
    (∀ (p : PState) (i w : Nat) (id rx cx : Byte) (tk : Nat) (e : Verdict) (c db : Bool) (q : SeqPos)
      (r : Option Request) (cs rsp : List Word16),
      step { s with
          pstate := p, idx := i, wcnt := w, dCid := id, dSettle := tk, receivedCRC := rx, computedCRC := cx,
          errorFlag := e, configured := c, delayBusy := db, seq := q, sreq := r, cmds := cs, responses := rsp } =
        onNext (fun t => { t with
          pstate := p, idx := i, wcnt := w, dCid := id, dSettle := tk, receivedCRC := rx, computedCRC := cx,
          errorFlag := e, configured := c, delayBusy := db, seq := q, sreq := r, cmds := cs, responses := rsp })
          (step s)) ∧
    (∀ x : Bool, onNext (fun t => { t with ready := false }) (step { s with ready := x }) =
      onNext (fun t => { t with ready := false }) (step s)) ∧
    (∀ m : List Host.Cell, onNext (fun t => { t with fBytes := [] }) (step { s with fBytes := m }) =
      onNext (fun t => { t with fBytes := [] }) (step s)) ∧
    (∀ t, step s = .next t →
      t.fLength = s.fLength ∧ t.dHascode = s.dHascode ∧ t.dCode = s.dCode ∧ t.cfg = s.cfg ∧
      ∃ op reply, t.trace = s.trace ++ [⟨.interrupt, op, reply⟩] ∧
        (op = .tInterruptStatus ∨ (∃ b, op = .tTransmit b) ∨ op = .tReceive ∨ (∃ src, op = .tDisableInterrupt src) ∨
          ∃ src, op = .tClearInterrupt src))

/-! ### Holding, answering, writing: the whole machine -/

/-- R80, R81: while busy, held command words are neither decoded nor run: every step but the host's own does the same
whatever words are held, and leaves them held. Busy is a `pstate` other than IDLE, or an operation in flight while
`pstate` is IDLE: SETUP, and the whole of transition 1. -/
def Obligations.HeldWordsTouchNothing : Prop :=
  ∀ (s : State) (cs : List Word16),
    s.pstate ≠ .idle ∨ s.seq ≠ .rest → s.turn = .run ∨ s.turn = .interrupt ∨ s.turn = .delayDone →
    step { s with cmds := cs } = onNext (fun t => { t with cmds := cs }) (step s)

/-- R80: each accepted command word is answered by exactly one response, in order, and at most one operation is in
flight: the responses delivered and the operation in flight together count the words accepted. -/
def Obligations.OneResponsePerCommand : Prop :=
  ∀ s t : State, s.Inv → s.turn ≠ .reset → step s = .next t →
    (∃ new, t.responses = s.responses ++ new) ∧
    t.responses.length + inFlightCount t =
      s.responses.length + inFlightCount s + (if acceptsCommand s then 1 else 0)

/-- R14, R100, R113: the edges of the protocol graph. -/
def Obligations.ProtocolGraph : Prop :=
  ∀ s t : State, s.Inv → s.turn ≠ .reset → step s = .next t → t.pstate ≠ s.pstate →
    (s.pstate, t.pstate) ∈ [(PState.idle, PState.configured), (.configured, .csAsserted),
      (.csAsserted, .transferring), (.transferring, .csDeasserted), (.csDeasserted, .validated),
      (.validated, .idle), (.transferring, .idle)] ∧
    ((s.pstate, t.pstate) = (.transferring, .idle) → t.responses = s.responses ++ [0x3000#16])

/-- R16: the sticky flag reads 0 for OK and 1 for FAIL; it is cleared by reset and CLRERR alone, and set by a failed
validation alone. -/
def Obligations.StickyFlagWriters : Prop :=
  verdictByte .ok = 0#8 ∧ verdictByte .fail = 1#8 ∧ ∀ s t : State, step s = .next t →
    (s.errorFlag = .fail → t.errorFlag = .ok →
      s.turn = .reset ∨ (s.turn = .run ∧ fetch s.afterTurn = .command .clrerr)) ∧
    (s.errorFlag = .ok → t.errorFlag = .fail →
      s.turn = .run ∧ s.hdl = .idle ∧ s.seq = .validate ∧ t.receivedCRC ≠ t.computedCRC)

/-- R23, R13, R18, R19, R12: nothing changes the build, reset included; who writes the diagnostics, `configured`, the
descriptor registers and the frame's length. -/
def Obligations.RegisterWriters : Prop :=
  ∀ s t : State, step s = .next t → t.cfg = s.cfg ∧ (s.turn ≠ .reset →
    (t.receivedCRC ≠ s.receivedCRC ∨ t.computedCRC ≠ s.computedCRC → s.hdl = .idle ∧ s.seq = .validate) ∧
    (t.configured ≠ s.configured → t.configured = true ∧ s.hdl = .idle ∧ s.seq = .configure) ∧
    (t.dCid ≠ s.dCid ∨ t.dHascode ≠ s.dHascode ∨ t.dCode ≠ s.dCode ∨ t.dSettle ≠ s.dSettle →
      s.hdl = .idle ∧ ∃ a, fetch s.afterTurn = .command (.capture a)) ∧
    (t.fLength ≠ s.fLength →
      s.hdl = .idle ∧ ((∃ a, fetch s.afterTurn = .command (.capture a)) ∨
        (s.seq = .toDisable ∧ t.fLength = 0 ∧ t.responses = s.responses ++ [0x3000#16]))))

/-- R27, R184: the write rights of the two contexts. An arm bit rises only at the sequencer's enable of its source, and
falls only at the handler's disable of it or at the sequencer's in the timeout sequence. The corner R27 itself sets
aside, arm_tx left at 1 by an earlier transaction, is why "unarmed" is said of arm_rx alone. -/
def Obligations.WriteRights : Prop :=
  ∀ s t : State, s.Inv → step s = .next t → s.turn ≠ .reset →
    (t.fBytes ≠ s.fBytes →
      (s.cfg.discipline = .polling ∧ s.hdl = .idle ∧ s.pstate = .transferring) ∨
      (s.cfg.discipline = .interrupt ∧ s.hdl ≠ .idle ∧ s.armRx = true)) ∧
    (t.fLength ≠ s.fLength ∨ t.dCid ≠ s.dCid ∨ t.dHascode ≠ s.dHascode ∨ t.dCode ≠ s.dCode ∨
        t.dSettle ≠ s.dSettle ∨ t.receivedCRC ≠ s.receivedCRC ∨ t.computedCRC ≠ s.computedCRC ∨
        t.errorFlag ≠ s.errorFlag → s.hdl = .idle ∧ s.armRx = false) ∧
    (t.pstate ≠ s.pstate ∨ t.idx ≠ s.idx ∨ t.wcnt ≠ s.wcnt ∨ t.configured ≠ s.configured → s.hdl = .idle) ∧
    (s.cfg.discipline = .polling → t.ready = s.ready ∧ t.armTx = s.armTx ∧ t.armRx = s.armRx) ∧
    (s.ready = false → t.ready = true → s.hdl ≠ .idle) ∧
    (s.ready = true → t.ready = false → s.hdl = .idle ∧ s.armRx = false) ∧
    (s.armTx = false → t.armTx = true → s.hdl = .idle ∧ s.seq = .enableTx) ∧
    (s.armRx = false → t.armRx = true → s.hdl = .idle ∧ s.seq = .enableRx) ∧
    (s.armTx = true → t.armTx = false → s.hdl = .txDisable ∨ (s.hdl = .idle ∧ s.seq = .toDisableTx)) ∧
    (s.armRx = true → t.armRx = false → s.hdl = .rxDisable ∨ (s.hdl = .idle ∧ s.seq = .toDisableRx))

/-- R157, R139: in the polling discipline no interrupt operation is ever issued and the handler never runs; in the
interrupt discipline no status read is. -/
def Obligations.DisciplinesIssueTheirOwn : Prop :=
  ∀ (s t : State) (e : PortEvent), s.Inv → step s = .next t → t.trace = s.trace ++ [e] →
    (s.cfg.discipline = .polling →
      t.hdl = .idle ∧ e.ctx = .calling ∧ e.op ≠ .tInterruptStatus ∧
      ∀ src, e.op ≠ .tEnableInterrupt src ∧ e.op ≠ .tDisableInterrupt src ∧ e.op ≠ .tClearInterrupt src) ∧
    (s.cfg.discipline = .interrupt → e.op ≠ .tTransferComplete)

/-- R130: a step issues at most one port request, adds it at the end of the history, and changes nothing before it;
reset included (R181: reset issues none). -/
def Obligations.HistoryGrowsByOne : Prop :=
  ∀ s t : State, step s = .next t →
    (t.trace = s.trace ∨ ∃ e, t.trace = s.trace ++ [e]) ∧ (s.turn ≠ .run → t.trace = s.trace)

/-- R57, R135, R136, R145: every request the block presents is a well-formed operation of its port. -/
def Obligations.PresentedRequestsWellFormed : Prop :=
  ∀ (s : State) (r : Request), s.Inv → s.sreq = some r ∨ s.hreq = some r →
    ∃ i, decodeRequest r = .ok i ∧ i.wellFormed s.cfg = true

/-! ### Reset and the invariant -/

/-- R180, R181, R26: reset at any point: every register the spec gives a value takes it, no response, no port operation,
the held words are dropped, and no delivery enters the handler afterwards. -/
def Obligations.ResetFromAnyState : Prop :=
  ∀ s : State, s.turn = .reset → ∃ t, step s = .next t ∧
    t.pstate = .idle ∧ t.fLength = 0 ∧ t.receivedCRC = 0x00#8 ∧ t.computedCRC = 0x00#8 ∧ t.errorFlag = .ok ∧
    t.ready = false ∧ t.configured = false ∧ t.armTx = false ∧ t.armRx = false ∧
    t.atRest ∧ t.cmds = [] ∧ t.responses = s.responses ∧ t.trace = s.trace ∧ t.cfg = s.cfg ∧
    (t.turn = .interrupt → step t = .next t.afterTurn)

/-- R26: the reset state of the model has the values the spec gives. -/
def Obligations.ResetStateValues : Prop :=
  State.reset.pstate = .idle ∧ State.reset.fLength = 0 ∧ State.reset.receivedCRC = 0x00#8 ∧
  State.reset.computedCRC = 0x00#8 ∧ State.reset.errorFlag = .ok ∧ State.reset.ready = false ∧
  State.reset.configured = false ∧ State.reset.armTx = false ∧ State.reset.armRx = false ∧ State.reset.atRest

/-- The invariant holds at reset, whatever the build. -/
def Obligations.InvariantAtReset : Prop :=
  State.reset.Inv ∧ ∀ cfg, (State.resetOf cfg).Inv

/-- Every step keeps the invariant, whoever moves. -/
def Obligations.StepKeepsInvariant : Prop :=
  ∀ s t : State, s.Inv → step s = .next t → t.Inv

/-- From a state with the invariant the machine never faults and never refuses: every step answers a next state. -/
def Obligations.StepAnswersNext : Prop :=
  ∀ s : State, s.Inv → ∃ t, step s = .next t
end

