-- ==== Sys2Proof/Laws/Codec.lean ====
section
/-! SUPPORT. The fields of a 16-bit port word, and what each part of the decoder can answer. -/

namespace Sys2Proof

@[simp] theorem padField_portWord (o : BitVec 4) (a : Byte) : padField (portWord o a) = 0#4 := by
  unfold padField portWord
  ext i hi
  simp
  omega

@[simp] theorem opField_portWord (o : BitVec 4) (a : Byte) : opField (portWord o a) = o := by
  unfold opField portWord
  ext i hi
  simp [BitVec.getLsbD_eq_getElem hi, show 12 + i < 16 by omega, BitVec.getLsbD_of_ge a (12 + i) (by omega)]

@[simp] theorem argField_portWord (o : BitVec 4) (a : Byte) : argField (portWord o a) = a := by
  unfold argField portWord
  ext i hi
  simp [BitVec.getLsbD_eq_getElem hi, show i < 12 by omega, show i < 16 by omega]

/-- A word is the port word of its own fields, once its pad is zero. -/
theorem portWord_fields (w : Word16) (h : padField w = 0#4) : portWord (opField w) (argField w) = w := by
  unfold portWord opField argField
  ext i hi
  have hp : ∀ j, j < 4 → w.getLsbD (8 + j) = false := by
    intro j hj
    have := congrArg (fun v => v.getLsbD j) h
    simpa [padField, hj] using this
  by_cases h8 : i < 8
  · simp [h8, BitVec.getLsbD_eq_getElem hi]; omega
  · by_cases h12 : i < 12
    · have := hp (i - 8) (by omega)
      rw [show 8 + (i - 8) = i by omega, BitVec.getLsbD_eq_getElem hi] at this
      simp [h8, h12, this]
    · simp [h8, h12, show 12 + (i - 12) = i by omega, BitVec.getLsbD_eq_getElem hi]
      omega

/-- An operation without an argument is accepted with the argument zero and with no other. -/
theorem withoutArg_ok (e : DecodeError) (a : Byte) (i j : Instr) :
    withoutArg e a i = .ok j ↔ a = 0#8 ∧ j = i := by
  unfold withoutArg
  split <;> simp [*, eq_comm]

theorem accepted_some (r : Except DecodeError Instr) (i : Instr) : accepted r = some i ↔ r = .ok i := by
  cases r <;> simp [accepted]

end Sys2Proof
end

