-- ==== Sys2Proof/Laws/State.lean ====
section
/-! SUPPORT. One lemma for each field of State after each of the shared updates, so that no proof unfolds a record. -/

namespace Sys2Proof.Machine

/-! `State.afterTurn` -/

@[simp] theorem State.afterTurn_cfg (s : State) : (s.afterTurn).cfg = s.cfg := by unfold State.afterTurn; split <;> rfl
@[simp] theorem State.afterTurn_fBytes (s : State) : (s.afterTurn).fBytes = s.fBytes := by unfold State.afterTurn; split <;> rfl
@[simp] theorem State.afterTurn_fLength (s : State) : (s.afterTurn).fLength = s.fLength := by unfold State.afterTurn; split <;> rfl
@[simp] theorem State.afterTurn_receivedCRC (s : State) : (s.afterTurn).receivedCRC = s.receivedCRC := by unfold State.afterTurn; split <;> rfl
@[simp] theorem State.afterTurn_computedCRC (s : State) : (s.afterTurn).computedCRC = s.computedCRC := by unfold State.afterTurn; split <;> rfl
@[simp] theorem State.afterTurn_pstate (s : State) : (s.afterTurn).pstate = s.pstate := by unfold State.afterTurn; split <;> rfl
@[simp] theorem State.afterTurn_idx (s : State) : (s.afterTurn).idx = s.idx := by unfold State.afterTurn; split <;> rfl
@[simp] theorem State.afterTurn_errorFlag (s : State) : (s.afterTurn).errorFlag = s.errorFlag := by unfold State.afterTurn; split <;> rfl
@[simp] theorem State.afterTurn_ready (s : State) : (s.afterTurn).ready = s.ready := by unfold State.afterTurn; split <;> rfl
@[simp] theorem State.afterTurn_configured (s : State) : (s.afterTurn).configured = s.configured := by unfold State.afterTurn; split <;> rfl
@[simp] theorem State.afterTurn_dCid (s : State) : (s.afterTurn).dCid = s.dCid := by unfold State.afterTurn; split <;> rfl
@[simp] theorem State.afterTurn_dHascode (s : State) : (s.afterTurn).dHascode = s.dHascode := by unfold State.afterTurn; split <;> rfl
@[simp] theorem State.afterTurn_dCode (s : State) : (s.afterTurn).dCode = s.dCode := by unfold State.afterTurn; split <;> rfl
@[simp] theorem State.afterTurn_dSettle (s : State) : (s.afterTurn).dSettle = s.dSettle := by unfold State.afterTurn; split <;> rfl
@[simp] theorem State.afterTurn_armTx (s : State) : (s.afterTurn).armTx = s.armTx := by unfold State.afterTurn; split <;> rfl
@[simp] theorem State.afterTurn_armRx (s : State) : (s.afterTurn).armRx = s.armRx := by unfold State.afterTurn; split <;> rfl
@[simp] theorem State.afterTurn_wcnt (s : State) : (s.afterTurn).wcnt = s.wcnt := by unfold State.afterTurn; split <;> rfl
@[simp] theorem State.afterTurn_seq (s : State) : (s.afterTurn).seq = s.seq := by unfold State.afterTurn; split <;> rfl
@[simp] theorem State.afterTurn_sreq (s : State) : (s.afterTurn).sreq = s.sreq := by unfold State.afterTurn; split <;> rfl
@[simp] theorem State.afterTurn_delayBusy (s : State) : (s.afterTurn).delayBusy = s.delayBusy := by unfold State.afterTurn; split <;> rfl
@[simp] theorem State.afterTurn_hdl (s : State) : (s.afterTurn).hdl = s.hdl := by unfold State.afterTurn; split <;> rfl
@[simp] theorem State.afterTurn_hreq (s : State) : (s.afterTurn).hreq = s.hreq := by unfold State.afterTurn; split <;> rfl
@[simp] theorem State.afterTurn_hk (s : State) : (s.afterTurn).hk = s.hk := by unfold State.afterTurn; split <;> rfl
@[simp] theorem State.afterTurn_hDoRx (s : State) : (s.afterTurn).hDoRx = s.hDoRx := by unfold State.afterTurn; split <;> rfl
@[simp] theorem State.afterTurn_irqPending (s : State) : (s.afterTurn).irqPending = s.irqPending := by unfold State.afterTurn; split <;> rfl
@[simp] theorem State.afterTurn_tqRd (s : State) : (s.afterTurn).tqRd = s.tqRd := by unfold State.afterTurn; split <;> rfl
@[simp] theorem State.afterTurn_cmds (s : State) : (s.afterTurn).cmds = s.cmds := by unfold State.afterTurn; split <;> rfl
@[simp] theorem State.afterTurn_responses (s : State) : (s.afterTurn).responses = s.responses := by unfold State.afterTurn; split <;> rfl
@[simp] theorem State.afterTurn_trace (s : State) : (s.afterTurn).trace = s.trace := by unfold State.afterTurn; split <;> rfl
@[simp] theorem State.afterTurn_replies (s : State) : (s.afterTurn).replies = s.replies := by unfold State.afterTurn; split <;> rfl

/-! `State.afterReply` -/

@[simp] theorem State.afterReply_cfg (s : State) : (s.afterReply).cfg = s.cfg := by unfold State.afterReply; split <;> rfl
@[simp] theorem State.afterReply_fBytes (s : State) : (s.afterReply).fBytes = s.fBytes := by unfold State.afterReply; split <;> rfl
@[simp] theorem State.afterReply_fLength (s : State) : (s.afterReply).fLength = s.fLength := by unfold State.afterReply; split <;> rfl
@[simp] theorem State.afterReply_receivedCRC (s : State) : (s.afterReply).receivedCRC = s.receivedCRC := by unfold State.afterReply; split <;> rfl
@[simp] theorem State.afterReply_computedCRC (s : State) : (s.afterReply).computedCRC = s.computedCRC := by unfold State.afterReply; split <;> rfl
@[simp] theorem State.afterReply_pstate (s : State) : (s.afterReply).pstate = s.pstate := by unfold State.afterReply; split <;> rfl
@[simp] theorem State.afterReply_idx (s : State) : (s.afterReply).idx = s.idx := by unfold State.afterReply; split <;> rfl
@[simp] theorem State.afterReply_errorFlag (s : State) : (s.afterReply).errorFlag = s.errorFlag := by unfold State.afterReply; split <;> rfl
@[simp] theorem State.afterReply_ready (s : State) : (s.afterReply).ready = s.ready := by unfold State.afterReply; split <;> rfl
@[simp] theorem State.afterReply_configured (s : State) : (s.afterReply).configured = s.configured := by unfold State.afterReply; split <;> rfl
@[simp] theorem State.afterReply_dCid (s : State) : (s.afterReply).dCid = s.dCid := by unfold State.afterReply; split <;> rfl
@[simp] theorem State.afterReply_dHascode (s : State) : (s.afterReply).dHascode = s.dHascode := by unfold State.afterReply; split <;> rfl
@[simp] theorem State.afterReply_dCode (s : State) : (s.afterReply).dCode = s.dCode := by unfold State.afterReply; split <;> rfl
@[simp] theorem State.afterReply_dSettle (s : State) : (s.afterReply).dSettle = s.dSettle := by unfold State.afterReply; split <;> rfl
@[simp] theorem State.afterReply_armTx (s : State) : (s.afterReply).armTx = s.armTx := by unfold State.afterReply; split <;> rfl
@[simp] theorem State.afterReply_armRx (s : State) : (s.afterReply).armRx = s.armRx := by unfold State.afterReply; split <;> rfl
@[simp] theorem State.afterReply_wcnt (s : State) : (s.afterReply).wcnt = s.wcnt := by unfold State.afterReply; split <;> rfl
@[simp] theorem State.afterReply_seq (s : State) : (s.afterReply).seq = s.seq := by unfold State.afterReply; split <;> rfl
@[simp] theorem State.afterReply_sreq (s : State) : (s.afterReply).sreq = s.sreq := by unfold State.afterReply; split <;> rfl
@[simp] theorem State.afterReply_delayBusy (s : State) : (s.afterReply).delayBusy = s.delayBusy := by unfold State.afterReply; split <;> rfl
@[simp] theorem State.afterReply_hdl (s : State) : (s.afterReply).hdl = s.hdl := by unfold State.afterReply; split <;> rfl
@[simp] theorem State.afterReply_hreq (s : State) : (s.afterReply).hreq = s.hreq := by unfold State.afterReply; split <;> rfl
@[simp] theorem State.afterReply_hk (s : State) : (s.afterReply).hk = s.hk := by unfold State.afterReply; split <;> rfl
@[simp] theorem State.afterReply_hDoRx (s : State) : (s.afterReply).hDoRx = s.hDoRx := by unfold State.afterReply; split <;> rfl
@[simp] theorem State.afterReply_irqPending (s : State) : (s.afterReply).irqPending = s.irqPending := by unfold State.afterReply; split <;> rfl
@[simp] theorem State.afterReply_tqRd (s : State) : (s.afterReply).tqRd = s.tqRd := by unfold State.afterReply; split <;> rfl
@[simp] theorem State.afterReply_cmds (s : State) : (s.afterReply).cmds = s.cmds := by unfold State.afterReply; split <;> rfl
@[simp] theorem State.afterReply_responses (s : State) : (s.afterReply).responses = s.responses := by unfold State.afterReply; split <;> rfl
@[simp] theorem State.afterReply_trace (s : State) : (s.afterReply).trace = s.trace := by unfold State.afterReply; split <;> rfl
@[simp] theorem State.afterReply_turns (s : State) : (s.afterReply).turns = s.turns := by unfold State.afterReply; split <;> rfl

/-! `State.issue` -/

@[simp] theorem State.issue_cfg (s : State) (op : Instr) : (s.issue op).cfg = s.cfg := rfl
@[simp] theorem State.issue_fBytes (s : State) (op : Instr) : (s.issue op).fBytes = s.fBytes := rfl
@[simp] theorem State.issue_fLength (s : State) (op : Instr) : (s.issue op).fLength = s.fLength := rfl
@[simp] theorem State.issue_receivedCRC (s : State) (op : Instr) : (s.issue op).receivedCRC = s.receivedCRC := rfl
@[simp] theorem State.issue_computedCRC (s : State) (op : Instr) : (s.issue op).computedCRC = s.computedCRC := rfl
@[simp] theorem State.issue_pstate (s : State) (op : Instr) : (s.issue op).pstate = s.pstate := rfl
@[simp] theorem State.issue_idx (s : State) (op : Instr) : (s.issue op).idx = s.idx := rfl
@[simp] theorem State.issue_errorFlag (s : State) (op : Instr) : (s.issue op).errorFlag = s.errorFlag := rfl
@[simp] theorem State.issue_ready (s : State) (op : Instr) : (s.issue op).ready = s.ready := rfl
@[simp] theorem State.issue_configured (s : State) (op : Instr) : (s.issue op).configured = s.configured := rfl
@[simp] theorem State.issue_dCid (s : State) (op : Instr) : (s.issue op).dCid = s.dCid := rfl
@[simp] theorem State.issue_dHascode (s : State) (op : Instr) : (s.issue op).dHascode = s.dHascode := rfl
@[simp] theorem State.issue_dCode (s : State) (op : Instr) : (s.issue op).dCode = s.dCode := rfl
@[simp] theorem State.issue_dSettle (s : State) (op : Instr) : (s.issue op).dSettle = s.dSettle := rfl
@[simp] theorem State.issue_armTx (s : State) (op : Instr) : (s.issue op).armTx = s.armTx := rfl
@[simp] theorem State.issue_armRx (s : State) (op : Instr) : (s.issue op).armRx = s.armRx := rfl
@[simp] theorem State.issue_wcnt (s : State) (op : Instr) : (s.issue op).wcnt = s.wcnt := rfl
@[simp] theorem State.issue_seq (s : State) (op : Instr) : (s.issue op).seq = s.seq := rfl
@[simp] theorem State.issue_sreq (s : State) (op : Instr) : (s.issue op).sreq = s.sreq := rfl
@[simp] theorem State.issue_delayBusy (s : State) (op : Instr) : (s.issue op).delayBusy = s.delayBusy := rfl
@[simp] theorem State.issue_hdl (s : State) (op : Instr) : (s.issue op).hdl = s.hdl := rfl
@[simp] theorem State.issue_hreq (s : State) (op : Instr) : (s.issue op).hreq = s.hreq := rfl
@[simp] theorem State.issue_hk (s : State) (op : Instr) : (s.issue op).hk = s.hk := rfl
@[simp] theorem State.issue_hDoRx (s : State) (op : Instr) : (s.issue op).hDoRx = s.hDoRx := rfl
@[simp] theorem State.issue_irqPending (s : State) (op : Instr) : (s.issue op).irqPending = s.irqPending := rfl
@[simp] theorem State.issue_tqRd (s : State) (op : Instr) : (s.issue op).tqRd = s.tqRd := rfl
@[simp] theorem State.issue_cmds (s : State) (op : Instr) : (s.issue op).cmds = s.cmds := rfl
@[simp] theorem State.issue_responses (s : State) (op : Instr) : (s.issue op).responses = s.responses := rfl
@[simp] theorem State.issue_trace (s : State) (op : Instr) : (s.issue op).trace = s.trace ++ [⟨s.context, op, none⟩] := rfl
@[simp] theorem State.issue_replies (s : State) (op : Instr) : (s.issue op).replies = s.replies := rfl
@[simp] theorem State.issue_turns (s : State) (op : Instr) : (s.issue op).turns = s.turns := rfl
@[simp] theorem State.issue_draws (s : State) (op : Instr) : (s.issue op).draws = s.draws := rfl

/-! `State.issueForReply` -/

@[simp] theorem State.issueForReply_cfg (s : State) (op : Instr) : (s.issueForReply op).cfg = s.cfg := by unfold State.issueForReply State.afterReply; split <;> rfl
@[simp] theorem State.issueForReply_fBytes (s : State) (op : Instr) : (s.issueForReply op).fBytes = s.fBytes := by unfold State.issueForReply State.afterReply; split <;> rfl
@[simp] theorem State.issueForReply_fLength (s : State) (op : Instr) : (s.issueForReply op).fLength = s.fLength := by unfold State.issueForReply State.afterReply; split <;> rfl
@[simp] theorem State.issueForReply_receivedCRC (s : State) (op : Instr) : (s.issueForReply op).receivedCRC = s.receivedCRC := by unfold State.issueForReply State.afterReply; split <;> rfl
@[simp] theorem State.issueForReply_computedCRC (s : State) (op : Instr) : (s.issueForReply op).computedCRC = s.computedCRC := by unfold State.issueForReply State.afterReply; split <;> rfl
@[simp] theorem State.issueForReply_pstate (s : State) (op : Instr) : (s.issueForReply op).pstate = s.pstate := by unfold State.issueForReply State.afterReply; split <;> rfl
@[simp] theorem State.issueForReply_idx (s : State) (op : Instr) : (s.issueForReply op).idx = s.idx := by unfold State.issueForReply State.afterReply; split <;> rfl
@[simp] theorem State.issueForReply_errorFlag (s : State) (op : Instr) : (s.issueForReply op).errorFlag = s.errorFlag := by unfold State.issueForReply State.afterReply; split <;> rfl
@[simp] theorem State.issueForReply_ready (s : State) (op : Instr) : (s.issueForReply op).ready = s.ready := by unfold State.issueForReply State.afterReply; split <;> rfl
@[simp] theorem State.issueForReply_configured (s : State) (op : Instr) : (s.issueForReply op).configured = s.configured := by unfold State.issueForReply State.afterReply; split <;> rfl
@[simp] theorem State.issueForReply_dCid (s : State) (op : Instr) : (s.issueForReply op).dCid = s.dCid := by unfold State.issueForReply State.afterReply; split <;> rfl
@[simp] theorem State.issueForReply_dHascode (s : State) (op : Instr) : (s.issueForReply op).dHascode = s.dHascode := by unfold State.issueForReply State.afterReply; split <;> rfl
@[simp] theorem State.issueForReply_dCode (s : State) (op : Instr) : (s.issueForReply op).dCode = s.dCode := by unfold State.issueForReply State.afterReply; split <;> rfl
@[simp] theorem State.issueForReply_dSettle (s : State) (op : Instr) : (s.issueForReply op).dSettle = s.dSettle := by unfold State.issueForReply State.afterReply; split <;> rfl
@[simp] theorem State.issueForReply_armTx (s : State) (op : Instr) : (s.issueForReply op).armTx = s.armTx := by unfold State.issueForReply State.afterReply; split <;> rfl
@[simp] theorem State.issueForReply_armRx (s : State) (op : Instr) : (s.issueForReply op).armRx = s.armRx := by unfold State.issueForReply State.afterReply; split <;> rfl
@[simp] theorem State.issueForReply_wcnt (s : State) (op : Instr) : (s.issueForReply op).wcnt = s.wcnt := by unfold State.issueForReply State.afterReply; split <;> rfl
@[simp] theorem State.issueForReply_seq (s : State) (op : Instr) : (s.issueForReply op).seq = s.seq := by unfold State.issueForReply State.afterReply; split <;> rfl
@[simp] theorem State.issueForReply_sreq (s : State) (op : Instr) : (s.issueForReply op).sreq = s.sreq := by unfold State.issueForReply State.afterReply; split <;> rfl
@[simp] theorem State.issueForReply_delayBusy (s : State) (op : Instr) : (s.issueForReply op).delayBusy = s.delayBusy := by unfold State.issueForReply State.afterReply; split <;> rfl
@[simp] theorem State.issueForReply_hdl (s : State) (op : Instr) : (s.issueForReply op).hdl = s.hdl := by unfold State.issueForReply State.afterReply; split <;> rfl
@[simp] theorem State.issueForReply_hreq (s : State) (op : Instr) : (s.issueForReply op).hreq = s.hreq := by unfold State.issueForReply State.afterReply; split <;> rfl
@[simp] theorem State.issueForReply_hk (s : State) (op : Instr) : (s.issueForReply op).hk = s.hk := by unfold State.issueForReply State.afterReply; split <;> rfl
@[simp] theorem State.issueForReply_hDoRx (s : State) (op : Instr) : (s.issueForReply op).hDoRx = s.hDoRx := by unfold State.issueForReply State.afterReply; split <;> rfl
@[simp] theorem State.issueForReply_irqPending (s : State) (op : Instr) : (s.issueForReply op).irqPending = s.irqPending := by unfold State.issueForReply State.afterReply; split <;> rfl
@[simp] theorem State.issueForReply_tqRd (s : State) (op : Instr) : (s.issueForReply op).tqRd = s.reply := by unfold State.issueForReply State.afterReply; split <;> rfl
@[simp] theorem State.issueForReply_cmds (s : State) (op : Instr) : (s.issueForReply op).cmds = s.cmds := by unfold State.issueForReply State.afterReply; split <;> rfl
@[simp] theorem State.issueForReply_responses (s : State) (op : Instr) : (s.issueForReply op).responses = s.responses := by unfold State.issueForReply State.afterReply; split <;> rfl
@[simp] theorem State.issueForReply_trace (s : State) (op : Instr) : (s.issueForReply op).trace = s.trace ++ [⟨s.context, op, some s.reply⟩] := by unfold State.issueForReply State.afterReply; split <;> rfl
@[simp] theorem State.issueForReply_replies (s : State) (op : Instr) : (s.issueForReply op).replies = s.afterReply.replies := by unfold State.issueForReply State.afterReply; split <;> rfl
@[simp] theorem State.issueForReply_turns (s : State) (op : Instr) : (s.issueForReply op).turns = s.turns := by unfold State.issueForReply State.afterReply; split <;> rfl
@[simp] theorem State.issueForReply_draws (s : State) (op : Instr) : (s.issueForReply op).draws = s.afterReply.draws := by unfold State.issueForReply State.afterReply; split <;> rfl

/-! `State.goTo` -/

@[simp] theorem State.goTo_cfg (s : State) (p : SeqPos) : (s.goTo p).cfg = s.cfg := rfl
@[simp] theorem State.goTo_fBytes (s : State) (p : SeqPos) : (s.goTo p).fBytes = s.fBytes := rfl
@[simp] theorem State.goTo_fLength (s : State) (p : SeqPos) : (s.goTo p).fLength = s.fLength := rfl
@[simp] theorem State.goTo_receivedCRC (s : State) (p : SeqPos) : (s.goTo p).receivedCRC = s.receivedCRC := rfl
@[simp] theorem State.goTo_computedCRC (s : State) (p : SeqPos) : (s.goTo p).computedCRC = s.computedCRC := rfl
@[simp] theorem State.goTo_pstate (s : State) (p : SeqPos) : (s.goTo p).pstate = s.pstate := rfl
@[simp] theorem State.goTo_idx (s : State) (p : SeqPos) : (s.goTo p).idx = s.idx := rfl
@[simp] theorem State.goTo_errorFlag (s : State) (p : SeqPos) : (s.goTo p).errorFlag = s.errorFlag := rfl
@[simp] theorem State.goTo_ready (s : State) (p : SeqPos) : (s.goTo p).ready = s.ready := rfl
@[simp] theorem State.goTo_configured (s : State) (p : SeqPos) : (s.goTo p).configured = s.configured := rfl
@[simp] theorem State.goTo_dCid (s : State) (p : SeqPos) : (s.goTo p).dCid = s.dCid := rfl
@[simp] theorem State.goTo_dHascode (s : State) (p : SeqPos) : (s.goTo p).dHascode = s.dHascode := rfl
@[simp] theorem State.goTo_dCode (s : State) (p : SeqPos) : (s.goTo p).dCode = s.dCode := rfl
@[simp] theorem State.goTo_dSettle (s : State) (p : SeqPos) : (s.goTo p).dSettle = s.dSettle := rfl
@[simp] theorem State.goTo_armTx (s : State) (p : SeqPos) : (s.goTo p).armTx = s.armTx := rfl
@[simp] theorem State.goTo_armRx (s : State) (p : SeqPos) : (s.goTo p).armRx = s.armRx := rfl
@[simp] theorem State.goTo_wcnt (s : State) (p : SeqPos) : (s.goTo p).wcnt = s.wcnt := rfl
@[simp] theorem State.goTo_seq (s : State) (p : SeqPos) : (s.goTo p).seq = p := rfl
@[simp] theorem State.goTo_sreq (s : State) (p : SeqPos) : (s.goTo p).sreq = (seqRequest s p).bind requestOf := rfl
@[simp] theorem State.goTo_delayBusy (s : State) (p : SeqPos) : (s.goTo p).delayBusy = s.delayBusy := rfl
@[simp] theorem State.goTo_hdl (s : State) (p : SeqPos) : (s.goTo p).hdl = s.hdl := rfl
@[simp] theorem State.goTo_hreq (s : State) (p : SeqPos) : (s.goTo p).hreq = s.hreq := rfl
@[simp] theorem State.goTo_hk (s : State) (p : SeqPos) : (s.goTo p).hk = s.hk := rfl
@[simp] theorem State.goTo_hDoRx (s : State) (p : SeqPos) : (s.goTo p).hDoRx = s.hDoRx := rfl
@[simp] theorem State.goTo_irqPending (s : State) (p : SeqPos) : (s.goTo p).irqPending = s.irqPending := rfl
@[simp] theorem State.goTo_tqRd (s : State) (p : SeqPos) : (s.goTo p).tqRd = s.tqRd := rfl
@[simp] theorem State.goTo_cmds (s : State) (p : SeqPos) : (s.goTo p).cmds = s.cmds := rfl
@[simp] theorem State.goTo_responses (s : State) (p : SeqPos) : (s.goTo p).responses = s.responses := rfl
@[simp] theorem State.goTo_trace (s : State) (p : SeqPos) : (s.goTo p).trace = s.trace := rfl
@[simp] theorem State.goTo_replies (s : State) (p : SeqPos) : (s.goTo p).replies = s.replies := rfl
@[simp] theorem State.goTo_turns (s : State) (p : SeqPos) : (s.goTo p).turns = s.turns := rfl
@[simp] theorem State.goTo_draws (s : State) (p : SeqPos) : (s.goTo p).draws = s.draws := rfl

/-! `State.hdlGoTo` -/

@[simp] theorem State.hdlGoTo_cfg (s : State) (p : HdlPos) : (s.hdlGoTo p).cfg = s.cfg := rfl
@[simp] theorem State.hdlGoTo_fBytes (s : State) (p : HdlPos) : (s.hdlGoTo p).fBytes = s.fBytes := rfl
@[simp] theorem State.hdlGoTo_fLength (s : State) (p : HdlPos) : (s.hdlGoTo p).fLength = s.fLength := rfl
@[simp] theorem State.hdlGoTo_receivedCRC (s : State) (p : HdlPos) : (s.hdlGoTo p).receivedCRC = s.receivedCRC := rfl
@[simp] theorem State.hdlGoTo_computedCRC (s : State) (p : HdlPos) : (s.hdlGoTo p).computedCRC = s.computedCRC := rfl
@[simp] theorem State.hdlGoTo_pstate (s : State) (p : HdlPos) : (s.hdlGoTo p).pstate = s.pstate := rfl
@[simp] theorem State.hdlGoTo_idx (s : State) (p : HdlPos) : (s.hdlGoTo p).idx = s.idx := rfl
@[simp] theorem State.hdlGoTo_errorFlag (s : State) (p : HdlPos) : (s.hdlGoTo p).errorFlag = s.errorFlag := rfl
@[simp] theorem State.hdlGoTo_ready (s : State) (p : HdlPos) : (s.hdlGoTo p).ready = s.ready := rfl
@[simp] theorem State.hdlGoTo_configured (s : State) (p : HdlPos) : (s.hdlGoTo p).configured = s.configured := rfl
@[simp] theorem State.hdlGoTo_dCid (s : State) (p : HdlPos) : (s.hdlGoTo p).dCid = s.dCid := rfl
@[simp] theorem State.hdlGoTo_dHascode (s : State) (p : HdlPos) : (s.hdlGoTo p).dHascode = s.dHascode := rfl
@[simp] theorem State.hdlGoTo_dCode (s : State) (p : HdlPos) : (s.hdlGoTo p).dCode = s.dCode := rfl
@[simp] theorem State.hdlGoTo_dSettle (s : State) (p : HdlPos) : (s.hdlGoTo p).dSettle = s.dSettle := rfl
@[simp] theorem State.hdlGoTo_armTx (s : State) (p : HdlPos) : (s.hdlGoTo p).armTx = s.armTx := rfl
@[simp] theorem State.hdlGoTo_armRx (s : State) (p : HdlPos) : (s.hdlGoTo p).armRx = s.armRx := rfl
@[simp] theorem State.hdlGoTo_wcnt (s : State) (p : HdlPos) : (s.hdlGoTo p).wcnt = s.wcnt := rfl
@[simp] theorem State.hdlGoTo_seq (s : State) (p : HdlPos) : (s.hdlGoTo p).seq = s.seq := rfl
@[simp] theorem State.hdlGoTo_sreq (s : State) (p : HdlPos) : (s.hdlGoTo p).sreq = s.sreq := rfl
@[simp] theorem State.hdlGoTo_delayBusy (s : State) (p : HdlPos) : (s.hdlGoTo p).delayBusy = s.delayBusy := rfl
@[simp] theorem State.hdlGoTo_hdl (s : State) (p : HdlPos) : (s.hdlGoTo p).hdl = p := rfl
@[simp] theorem State.hdlGoTo_hreq (s : State) (p : HdlPos) : (s.hdlGoTo p).hreq = (hdlRequest s p).bind requestOf := rfl
@[simp] theorem State.hdlGoTo_hk (s : State) (p : HdlPos) : (s.hdlGoTo p).hk = s.hk := rfl
@[simp] theorem State.hdlGoTo_hDoRx (s : State) (p : HdlPos) : (s.hdlGoTo p).hDoRx = s.hDoRx := rfl
@[simp] theorem State.hdlGoTo_irqPending (s : State) (p : HdlPos) : (s.hdlGoTo p).irqPending = s.irqPending := rfl
@[simp] theorem State.hdlGoTo_tqRd (s : State) (p : HdlPos) : (s.hdlGoTo p).tqRd = s.tqRd := rfl
@[simp] theorem State.hdlGoTo_cmds (s : State) (p : HdlPos) : (s.hdlGoTo p).cmds = s.cmds := rfl
@[simp] theorem State.hdlGoTo_responses (s : State) (p : HdlPos) : (s.hdlGoTo p).responses = s.responses := rfl
@[simp] theorem State.hdlGoTo_trace (s : State) (p : HdlPos) : (s.hdlGoTo p).trace = s.trace := rfl
@[simp] theorem State.hdlGoTo_replies (s : State) (p : HdlPos) : (s.hdlGoTo p).replies = s.replies := rfl
@[simp] theorem State.hdlGoTo_turns (s : State) (p : HdlPos) : (s.hdlGoTo p).turns = s.turns := rfl
@[simp] theorem State.hdlGoTo_draws (s : State) (p : HdlPos) : (s.hdlGoTo p).draws = s.draws := rfl

/-! `State.respond` -/

@[simp] theorem State.respond_cfg (s : State) (st : Status) (d : Byte) : (s.respond st d).cfg = s.cfg := rfl
@[simp] theorem State.respond_fBytes (s : State) (st : Status) (d : Byte) : (s.respond st d).fBytes = s.fBytes := rfl
@[simp] theorem State.respond_fLength (s : State) (st : Status) (d : Byte) : (s.respond st d).fLength = s.fLength := rfl
@[simp] theorem State.respond_receivedCRC (s : State) (st : Status) (d : Byte) : (s.respond st d).receivedCRC = s.receivedCRC := rfl
@[simp] theorem State.respond_computedCRC (s : State) (st : Status) (d : Byte) : (s.respond st d).computedCRC = s.computedCRC := rfl
@[simp] theorem State.respond_pstate (s : State) (st : Status) (d : Byte) : (s.respond st d).pstate = s.pstate := rfl
@[simp] theorem State.respond_idx (s : State) (st : Status) (d : Byte) : (s.respond st d).idx = s.idx := rfl
@[simp] theorem State.respond_errorFlag (s : State) (st : Status) (d : Byte) : (s.respond st d).errorFlag = s.errorFlag := rfl
@[simp] theorem State.respond_ready (s : State) (st : Status) (d : Byte) : (s.respond st d).ready = s.ready := rfl
@[simp] theorem State.respond_configured (s : State) (st : Status) (d : Byte) : (s.respond st d).configured = s.configured := rfl
@[simp] theorem State.respond_dCid (s : State) (st : Status) (d : Byte) : (s.respond st d).dCid = s.dCid := rfl
@[simp] theorem State.respond_dHascode (s : State) (st : Status) (d : Byte) : (s.respond st d).dHascode = s.dHascode := rfl
@[simp] theorem State.respond_dCode (s : State) (st : Status) (d : Byte) : (s.respond st d).dCode = s.dCode := rfl
@[simp] theorem State.respond_dSettle (s : State) (st : Status) (d : Byte) : (s.respond st d).dSettle = s.dSettle := rfl
@[simp] theorem State.respond_armTx (s : State) (st : Status) (d : Byte) : (s.respond st d).armTx = s.armTx := rfl
@[simp] theorem State.respond_armRx (s : State) (st : Status) (d : Byte) : (s.respond st d).armRx = s.armRx := rfl
@[simp] theorem State.respond_wcnt (s : State) (st : Status) (d : Byte) : (s.respond st d).wcnt = s.wcnt := rfl
@[simp] theorem State.respond_seq (s : State) (st : Status) (d : Byte) : (s.respond st d).seq = s.seq := rfl
@[simp] theorem State.respond_sreq (s : State) (st : Status) (d : Byte) : (s.respond st d).sreq = s.sreq := rfl
@[simp] theorem State.respond_delayBusy (s : State) (st : Status) (d : Byte) : (s.respond st d).delayBusy = s.delayBusy := rfl
@[simp] theorem State.respond_hdl (s : State) (st : Status) (d : Byte) : (s.respond st d).hdl = s.hdl := rfl
@[simp] theorem State.respond_hreq (s : State) (st : Status) (d : Byte) : (s.respond st d).hreq = s.hreq := rfl
@[simp] theorem State.respond_hk (s : State) (st : Status) (d : Byte) : (s.respond st d).hk = s.hk := rfl
@[simp] theorem State.respond_hDoRx (s : State) (st : Status) (d : Byte) : (s.respond st d).hDoRx = s.hDoRx := rfl
@[simp] theorem State.respond_irqPending (s : State) (st : Status) (d : Byte) : (s.respond st d).irqPending = s.irqPending := rfl
@[simp] theorem State.respond_tqRd (s : State) (st : Status) (d : Byte) : (s.respond st d).tqRd = s.tqRd := rfl
@[simp] theorem State.respond_cmds (s : State) (st : Status) (d : Byte) : (s.respond st d).cmds = s.cmds := rfl
@[simp] theorem State.respond_responses (s : State) (st : Status) (d : Byte) : (s.respond st d).responses = s.responses ++ [responseWord st d] := rfl
@[simp] theorem State.respond_trace (s : State) (st : Status) (d : Byte) : (s.respond st d).trace = s.trace := rfl
@[simp] theorem State.respond_replies (s : State) (st : Status) (d : Byte) : (s.respond st d).replies = s.replies := rfl
@[simp] theorem State.respond_turns (s : State) (st : Status) (d : Byte) : (s.respond st d).turns = s.turns := rfl
@[simp] theorem State.respond_draws (s : State) (st : Status) (d : Byte) : (s.respond st d).draws = s.draws := rfl

/-! `State.raise` -/

@[simp] theorem State.raise_cfg (s : State) (e : HostError) : (s.raise e).cfg = s.cfg := rfl
@[simp] theorem State.raise_fBytes (s : State) (e : HostError) : (s.raise e).fBytes = s.fBytes := rfl
@[simp] theorem State.raise_fLength (s : State) (e : HostError) : (s.raise e).fLength = s.fLength := rfl
@[simp] theorem State.raise_receivedCRC (s : State) (e : HostError) : (s.raise e).receivedCRC = s.receivedCRC := rfl
@[simp] theorem State.raise_computedCRC (s : State) (e : HostError) : (s.raise e).computedCRC = s.computedCRC := rfl
@[simp] theorem State.raise_pstate (s : State) (e : HostError) : (s.raise e).pstate = s.pstate := rfl
@[simp] theorem State.raise_idx (s : State) (e : HostError) : (s.raise e).idx = s.idx := rfl
@[simp] theorem State.raise_errorFlag (s : State) (e : HostError) : (s.raise e).errorFlag = s.errorFlag := rfl
@[simp] theorem State.raise_ready (s : State) (e : HostError) : (s.raise e).ready = s.ready := rfl
@[simp] theorem State.raise_configured (s : State) (e : HostError) : (s.raise e).configured = s.configured := rfl
@[simp] theorem State.raise_dCid (s : State) (e : HostError) : (s.raise e).dCid = s.dCid := rfl
@[simp] theorem State.raise_dHascode (s : State) (e : HostError) : (s.raise e).dHascode = s.dHascode := rfl
@[simp] theorem State.raise_dCode (s : State) (e : HostError) : (s.raise e).dCode = s.dCode := rfl
@[simp] theorem State.raise_dSettle (s : State) (e : HostError) : (s.raise e).dSettle = s.dSettle := rfl
@[simp] theorem State.raise_armTx (s : State) (e : HostError) : (s.raise e).armTx = s.armTx := rfl
@[simp] theorem State.raise_armRx (s : State) (e : HostError) : (s.raise e).armRx = s.armRx := rfl
@[simp] theorem State.raise_wcnt (s : State) (e : HostError) : (s.raise e).wcnt = s.wcnt := rfl
@[simp] theorem State.raise_seq (s : State) (e : HostError) : (s.raise e).seq = s.seq := rfl
@[simp] theorem State.raise_sreq (s : State) (e : HostError) : (s.raise e).sreq = s.sreq := rfl
@[simp] theorem State.raise_delayBusy (s : State) (e : HostError) : (s.raise e).delayBusy = s.delayBusy := rfl
@[simp] theorem State.raise_hdl (s : State) (e : HostError) : (s.raise e).hdl = s.hdl := rfl
@[simp] theorem State.raise_hreq (s : State) (e : HostError) : (s.raise e).hreq = s.hreq := rfl
@[simp] theorem State.raise_hk (s : State) (e : HostError) : (s.raise e).hk = s.hk := rfl
@[simp] theorem State.raise_hDoRx (s : State) (e : HostError) : (s.raise e).hDoRx = s.hDoRx := rfl
@[simp] theorem State.raise_irqPending (s : State) (e : HostError) : (s.raise e).irqPending = s.irqPending := rfl
@[simp] theorem State.raise_tqRd (s : State) (e : HostError) : (s.raise e).tqRd = s.tqRd := rfl
@[simp] theorem State.raise_cmds (s : State) (e : HostError) : (s.raise e).cmds = s.cmds := rfl
@[simp] theorem State.raise_responses (s : State) (e : HostError) : (s.raise e).responses = s.responses ++ [responseWord e.status 0x00#8] := rfl
@[simp] theorem State.raise_trace (s : State) (e : HostError) : (s.raise e).trace = s.trace := rfl
@[simp] theorem State.raise_replies (s : State) (e : HostError) : (s.raise e).replies = s.replies := rfl
@[simp] theorem State.raise_turns (s : State) (e : HostError) : (s.raise e).turns = s.turns := rfl
@[simp] theorem State.raise_draws (s : State) (e : HostError) : (s.raise e).draws = s.draws := rfl

/-! `State.setArm` -/

@[simp] theorem State.setArm_cfg (s : State) (src : Source) (b : Bool) : (s.setArm src b).cfg = s.cfg := by cases src <;> rfl
@[simp] theorem State.setArm_fBytes (s : State) (src : Source) (b : Bool) : (s.setArm src b).fBytes = s.fBytes := by cases src <;> rfl
@[simp] theorem State.setArm_fLength (s : State) (src : Source) (b : Bool) : (s.setArm src b).fLength = s.fLength := by cases src <;> rfl
@[simp] theorem State.setArm_receivedCRC (s : State) (src : Source) (b : Bool) : (s.setArm src b).receivedCRC = s.receivedCRC := by cases src <;> rfl
@[simp] theorem State.setArm_computedCRC (s : State) (src : Source) (b : Bool) : (s.setArm src b).computedCRC = s.computedCRC := by cases src <;> rfl
@[simp] theorem State.setArm_pstate (s : State) (src : Source) (b : Bool) : (s.setArm src b).pstate = s.pstate := by cases src <;> rfl
@[simp] theorem State.setArm_idx (s : State) (src : Source) (b : Bool) : (s.setArm src b).idx = s.idx := by cases src <;> rfl
@[simp] theorem State.setArm_errorFlag (s : State) (src : Source) (b : Bool) : (s.setArm src b).errorFlag = s.errorFlag := by cases src <;> rfl
@[simp] theorem State.setArm_ready (s : State) (src : Source) (b : Bool) : (s.setArm src b).ready = s.ready := by cases src <;> rfl
@[simp] theorem State.setArm_configured (s : State) (src : Source) (b : Bool) : (s.setArm src b).configured = s.configured := by cases src <;> rfl
@[simp] theorem State.setArm_dCid (s : State) (src : Source) (b : Bool) : (s.setArm src b).dCid = s.dCid := by cases src <;> rfl
@[simp] theorem State.setArm_dHascode (s : State) (src : Source) (b : Bool) : (s.setArm src b).dHascode = s.dHascode := by cases src <;> rfl
@[simp] theorem State.setArm_dCode (s : State) (src : Source) (b : Bool) : (s.setArm src b).dCode = s.dCode := by cases src <;> rfl
@[simp] theorem State.setArm_dSettle (s : State) (src : Source) (b : Bool) : (s.setArm src b).dSettle = s.dSettle := by cases src <;> rfl
@[simp] theorem State.setArm_wcnt (s : State) (src : Source) (b : Bool) : (s.setArm src b).wcnt = s.wcnt := by cases src <;> rfl
@[simp] theorem State.setArm_seq (s : State) (src : Source) (b : Bool) : (s.setArm src b).seq = s.seq := by cases src <;> rfl
@[simp] theorem State.setArm_sreq (s : State) (src : Source) (b : Bool) : (s.setArm src b).sreq = s.sreq := by cases src <;> rfl
@[simp] theorem State.setArm_delayBusy (s : State) (src : Source) (b : Bool) : (s.setArm src b).delayBusy = s.delayBusy := by cases src <;> rfl
@[simp] theorem State.setArm_hdl (s : State) (src : Source) (b : Bool) : (s.setArm src b).hdl = s.hdl := by cases src <;> rfl
@[simp] theorem State.setArm_hreq (s : State) (src : Source) (b : Bool) : (s.setArm src b).hreq = s.hreq := by cases src <;> rfl
@[simp] theorem State.setArm_hk (s : State) (src : Source) (b : Bool) : (s.setArm src b).hk = s.hk := by cases src <;> rfl
@[simp] theorem State.setArm_hDoRx (s : State) (src : Source) (b : Bool) : (s.setArm src b).hDoRx = s.hDoRx := by cases src <;> rfl
@[simp] theorem State.setArm_irqPending (s : State) (src : Source) (b : Bool) : (s.setArm src b).irqPending = s.irqPending := by cases src <;> rfl
@[simp] theorem State.setArm_tqRd (s : State) (src : Source) (b : Bool) : (s.setArm src b).tqRd = s.tqRd := by cases src <;> rfl
@[simp] theorem State.setArm_cmds (s : State) (src : Source) (b : Bool) : (s.setArm src b).cmds = s.cmds := by cases src <;> rfl
@[simp] theorem State.setArm_responses (s : State) (src : Source) (b : Bool) : (s.setArm src b).responses = s.responses := by cases src <;> rfl
@[simp] theorem State.setArm_trace (s : State) (src : Source) (b : Bool) : (s.setArm src b).trace = s.trace := by cases src <;> rfl
@[simp] theorem State.setArm_replies (s : State) (src : Source) (b : Bool) : (s.setArm src b).replies = s.replies := by cases src <;> rfl
@[simp] theorem State.setArm_turns (s : State) (src : Source) (b : Bool) : (s.setArm src b).turns = s.turns := by cases src <;> rfl
@[simp] theorem State.setArm_draws (s : State) (src : Source) (b : Bool) : (s.setArm src b).draws = s.draws := by cases src <;> rfl

/-! `State.acceptCommand` -/

@[simp] theorem State.acceptCommand_cfg (s : State) : (s.acceptCommand).cfg = s.cfg := rfl
@[simp] theorem State.acceptCommand_fBytes (s : State) : (s.acceptCommand).fBytes = s.fBytes := rfl
@[simp] theorem State.acceptCommand_fLength (s : State) : (s.acceptCommand).fLength = s.fLength := rfl
@[simp] theorem State.acceptCommand_receivedCRC (s : State) : (s.acceptCommand).receivedCRC = s.receivedCRC := rfl
@[simp] theorem State.acceptCommand_computedCRC (s : State) : (s.acceptCommand).computedCRC = s.computedCRC := rfl
@[simp] theorem State.acceptCommand_pstate (s : State) : (s.acceptCommand).pstate = s.pstate := rfl
@[simp] theorem State.acceptCommand_idx (s : State) : (s.acceptCommand).idx = s.idx := rfl
@[simp] theorem State.acceptCommand_errorFlag (s : State) : (s.acceptCommand).errorFlag = s.errorFlag := rfl
@[simp] theorem State.acceptCommand_ready (s : State) : (s.acceptCommand).ready = s.ready := rfl
@[simp] theorem State.acceptCommand_configured (s : State) : (s.acceptCommand).configured = s.configured := rfl
@[simp] theorem State.acceptCommand_dCid (s : State) : (s.acceptCommand).dCid = s.dCid := rfl
@[simp] theorem State.acceptCommand_dHascode (s : State) : (s.acceptCommand).dHascode = s.dHascode := rfl
@[simp] theorem State.acceptCommand_dCode (s : State) : (s.acceptCommand).dCode = s.dCode := rfl
@[simp] theorem State.acceptCommand_dSettle (s : State) : (s.acceptCommand).dSettle = s.dSettle := rfl
@[simp] theorem State.acceptCommand_armTx (s : State) : (s.acceptCommand).armTx = s.armTx := rfl
@[simp] theorem State.acceptCommand_armRx (s : State) : (s.acceptCommand).armRx = s.armRx := rfl
@[simp] theorem State.acceptCommand_wcnt (s : State) : (s.acceptCommand).wcnt = s.wcnt := rfl
@[simp] theorem State.acceptCommand_seq (s : State) : (s.acceptCommand).seq = s.seq := rfl
@[simp] theorem State.acceptCommand_sreq (s : State) : (s.acceptCommand).sreq = s.sreq := rfl
@[simp] theorem State.acceptCommand_delayBusy (s : State) : (s.acceptCommand).delayBusy = s.delayBusy := rfl
@[simp] theorem State.acceptCommand_hdl (s : State) : (s.acceptCommand).hdl = s.hdl := rfl
@[simp] theorem State.acceptCommand_hreq (s : State) : (s.acceptCommand).hreq = s.hreq := rfl
@[simp] theorem State.acceptCommand_hk (s : State) : (s.acceptCommand).hk = s.hk := rfl
@[simp] theorem State.acceptCommand_hDoRx (s : State) : (s.acceptCommand).hDoRx = s.hDoRx := rfl
@[simp] theorem State.acceptCommand_irqPending (s : State) : (s.acceptCommand).irqPending = s.irqPending := rfl
@[simp] theorem State.acceptCommand_tqRd (s : State) : (s.acceptCommand).tqRd = s.tqRd := rfl
@[simp] theorem State.acceptCommand_cmds (s : State) : (s.acceptCommand).cmds = s.cmds.tail := rfl
@[simp] theorem State.acceptCommand_responses (s : State) : (s.acceptCommand).responses = s.responses := rfl
@[simp] theorem State.acceptCommand_trace (s : State) : (s.acceptCommand).trace = s.trace := rfl
@[simp] theorem State.acceptCommand_replies (s : State) : (s.acceptCommand).replies = s.replies := rfl
@[simp] theorem State.acceptCommand_turns (s : State) : (s.acceptCommand).turns = s.turns := rfl
@[simp] theorem State.acceptCommand_draws (s : State) : (s.acceptCommand).draws = s.draws := rfl

/-! `State.recordCheck` -/

@[simp] theorem State.recordCheck_cfg (s : State) (r c : Byte) : (s.recordCheck r c).cfg = s.cfg := rfl
@[simp] theorem State.recordCheck_fBytes (s : State) (r c : Byte) : (s.recordCheck r c).fBytes = s.fBytes := rfl
@[simp] theorem State.recordCheck_fLength (s : State) (r c : Byte) : (s.recordCheck r c).fLength = s.fLength := rfl
@[simp] theorem State.recordCheck_receivedCRC (s : State) (r c : Byte) : (s.recordCheck r c).receivedCRC = r := rfl
@[simp] theorem State.recordCheck_computedCRC (s : State) (r c : Byte) : (s.recordCheck r c).computedCRC = c := rfl
@[simp] theorem State.recordCheck_pstate (s : State) (r c : Byte) : (s.recordCheck r c).pstate = s.pstate := rfl
@[simp] theorem State.recordCheck_idx (s : State) (r c : Byte) : (s.recordCheck r c).idx = s.idx := rfl
@[simp] theorem State.recordCheck_errorFlag (s : State) (r c : Byte) : (s.recordCheck r c).errorFlag = stickyAfter s.errorFlag (verdictOf r c) := rfl
@[simp] theorem State.recordCheck_ready (s : State) (r c : Byte) : (s.recordCheck r c).ready = s.ready := rfl
@[simp] theorem State.recordCheck_configured (s : State) (r c : Byte) : (s.recordCheck r c).configured = s.configured := rfl
@[simp] theorem State.recordCheck_dCid (s : State) (r c : Byte) : (s.recordCheck r c).dCid = s.dCid := rfl
@[simp] theorem State.recordCheck_dHascode (s : State) (r c : Byte) : (s.recordCheck r c).dHascode = s.dHascode := rfl
@[simp] theorem State.recordCheck_dCode (s : State) (r c : Byte) : (s.recordCheck r c).dCode = s.dCode := rfl
@[simp] theorem State.recordCheck_dSettle (s : State) (r c : Byte) : (s.recordCheck r c).dSettle = s.dSettle := rfl
@[simp] theorem State.recordCheck_armTx (s : State) (r c : Byte) : (s.recordCheck r c).armTx = s.armTx := rfl
@[simp] theorem State.recordCheck_armRx (s : State) (r c : Byte) : (s.recordCheck r c).armRx = s.armRx := rfl
@[simp] theorem State.recordCheck_wcnt (s : State) (r c : Byte) : (s.recordCheck r c).wcnt = s.wcnt := rfl
@[simp] theorem State.recordCheck_seq (s : State) (r c : Byte) : (s.recordCheck r c).seq = s.seq := rfl
@[simp] theorem State.recordCheck_sreq (s : State) (r c : Byte) : (s.recordCheck r c).sreq = s.sreq := rfl
@[simp] theorem State.recordCheck_delayBusy (s : State) (r c : Byte) : (s.recordCheck r c).delayBusy = s.delayBusy := rfl
@[simp] theorem State.recordCheck_hdl (s : State) (r c : Byte) : (s.recordCheck r c).hdl = s.hdl := rfl
@[simp] theorem State.recordCheck_hreq (s : State) (r c : Byte) : (s.recordCheck r c).hreq = s.hreq := rfl
@[simp] theorem State.recordCheck_hk (s : State) (r c : Byte) : (s.recordCheck r c).hk = s.hk := rfl
@[simp] theorem State.recordCheck_hDoRx (s : State) (r c : Byte) : (s.recordCheck r c).hDoRx = s.hDoRx := rfl
@[simp] theorem State.recordCheck_irqPending (s : State) (r c : Byte) : (s.recordCheck r c).irqPending = s.irqPending := rfl
@[simp] theorem State.recordCheck_tqRd (s : State) (r c : Byte) : (s.recordCheck r c).tqRd = s.tqRd := rfl
@[simp] theorem State.recordCheck_cmds (s : State) (r c : Byte) : (s.recordCheck r c).cmds = s.cmds := rfl
@[simp] theorem State.recordCheck_responses (s : State) (r c : Byte) : (s.recordCheck r c).responses = s.responses := rfl
@[simp] theorem State.recordCheck_trace (s : State) (r c : Byte) : (s.recordCheck r c).trace = s.trace := rfl
@[simp] theorem State.recordCheck_replies (s : State) (r c : Byte) : (s.recordCheck r c).replies = s.replies := rfl
@[simp] theorem State.recordCheck_turns (s : State) (r c : Byte) : (s.recordCheck r c).turns = s.turns := rfl
@[simp] theorem State.recordCheck_draws (s : State) (r c : Byte) : (s.recordCheck r c).draws = s.draws := rfl

/-! `State.loadDescriptor` -/

@[simp] theorem State.loadDescriptor_cfg (s : State) (a : Byte) (d : Descriptor) : (s.loadDescriptor a d).cfg = s.cfg := rfl
@[simp] theorem State.loadDescriptor_fBytes (s : State) (a : Byte) (d : Descriptor) : (s.loadDescriptor a d).fBytes = s.fBytes := rfl
@[simp] theorem State.loadDescriptor_fLength (s : State) (a : Byte) (d : Descriptor) : (s.loadDescriptor a d).fLength = d.rlen := rfl
@[simp] theorem State.loadDescriptor_receivedCRC (s : State) (a : Byte) (d : Descriptor) : (s.loadDescriptor a d).receivedCRC = s.receivedCRC := rfl
@[simp] theorem State.loadDescriptor_computedCRC (s : State) (a : Byte) (d : Descriptor) : (s.loadDescriptor a d).computedCRC = s.computedCRC := rfl
@[simp] theorem State.loadDescriptor_pstate (s : State) (a : Byte) (d : Descriptor) : (s.loadDescriptor a d).pstate = s.pstate := rfl
@[simp] theorem State.loadDescriptor_idx (s : State) (a : Byte) (d : Descriptor) : (s.loadDescriptor a d).idx = s.idx := rfl
@[simp] theorem State.loadDescriptor_errorFlag (s : State) (a : Byte) (d : Descriptor) : (s.loadDescriptor a d).errorFlag = s.errorFlag := rfl
@[simp] theorem State.loadDescriptor_ready (s : State) (a : Byte) (d : Descriptor) : (s.loadDescriptor a d).ready = s.ready := rfl
@[simp] theorem State.loadDescriptor_configured (s : State) (a : Byte) (d : Descriptor) : (s.loadDescriptor a d).configured = s.configured := rfl
@[simp] theorem State.loadDescriptor_dCid (s : State) (a : Byte) (d : Descriptor) : (s.loadDescriptor a d).dCid = a := rfl
@[simp] theorem State.loadDescriptor_dHascode (s : State) (a : Byte) (d : Descriptor) : (s.loadDescriptor a d).dHascode = d.code.isSome := rfl
@[simp] theorem State.loadDescriptor_dCode (s : State) (a : Byte) (d : Descriptor) : (s.loadDescriptor a d).dCode = d.code.getD s.dCode := rfl
@[simp] theorem State.loadDescriptor_dSettle (s : State) (a : Byte) (d : Descriptor) : (s.loadDescriptor a d).dSettle = d.settle := rfl
@[simp] theorem State.loadDescriptor_armTx (s : State) (a : Byte) (d : Descriptor) : (s.loadDescriptor a d).armTx = s.armTx := rfl
@[simp] theorem State.loadDescriptor_armRx (s : State) (a : Byte) (d : Descriptor) : (s.loadDescriptor a d).armRx = s.armRx := rfl
@[simp] theorem State.loadDescriptor_wcnt (s : State) (a : Byte) (d : Descriptor) : (s.loadDescriptor a d).wcnt = s.wcnt := rfl
@[simp] theorem State.loadDescriptor_seq (s : State) (a : Byte) (d : Descriptor) : (s.loadDescriptor a d).seq = s.seq := rfl
@[simp] theorem State.loadDescriptor_sreq (s : State) (a : Byte) (d : Descriptor) : (s.loadDescriptor a d).sreq = s.sreq := rfl
@[simp] theorem State.loadDescriptor_delayBusy (s : State) (a : Byte) (d : Descriptor) : (s.loadDescriptor a d).delayBusy = s.delayBusy := rfl
@[simp] theorem State.loadDescriptor_hdl (s : State) (a : Byte) (d : Descriptor) : (s.loadDescriptor a d).hdl = s.hdl := rfl
@[simp] theorem State.loadDescriptor_hreq (s : State) (a : Byte) (d : Descriptor) : (s.loadDescriptor a d).hreq = s.hreq := rfl
@[simp] theorem State.loadDescriptor_hk (s : State) (a : Byte) (d : Descriptor) : (s.loadDescriptor a d).hk = s.hk := rfl
@[simp] theorem State.loadDescriptor_hDoRx (s : State) (a : Byte) (d : Descriptor) : (s.loadDescriptor a d).hDoRx = s.hDoRx := rfl
@[simp] theorem State.loadDescriptor_irqPending (s : State) (a : Byte) (d : Descriptor) : (s.loadDescriptor a d).irqPending = s.irqPending := rfl
@[simp] theorem State.loadDescriptor_tqRd (s : State) (a : Byte) (d : Descriptor) : (s.loadDescriptor a d).tqRd = s.tqRd := rfl
@[simp] theorem State.loadDescriptor_cmds (s : State) (a : Byte) (d : Descriptor) : (s.loadDescriptor a d).cmds = s.cmds := rfl
@[simp] theorem State.loadDescriptor_responses (s : State) (a : Byte) (d : Descriptor) : (s.loadDescriptor a d).responses = s.responses := rfl
@[simp] theorem State.loadDescriptor_trace (s : State) (a : Byte) (d : Descriptor) : (s.loadDescriptor a d).trace = s.trace := rfl
@[simp] theorem State.loadDescriptor_replies (s : State) (a : Byte) (d : Descriptor) : (s.loadDescriptor a d).replies = s.replies := rfl
@[simp] theorem State.loadDescriptor_turns (s : State) (a : Byte) (d : Descriptor) : (s.loadDescriptor a d).turns = s.turns := rfl
@[simp] theorem State.loadDescriptor_draws (s : State) (a : Byte) (d : Descriptor) : (s.loadDescriptor a d).draws = s.draws := rfl

/-! The two arm bits after `State.setArm`, and what `State.afterTurn` and `State.afterReply` take. -/

@[simp] theorem State.setArm_armTx_txEmpty (s : State) (b : Bool) : (s.setArm .txEmpty b).armTx = b := rfl
@[simp] theorem State.setArm_armTx_rxFull (s : State) (b : Bool) : (s.setArm .rxFull b).armTx = s.armTx := rfl
@[simp] theorem State.setArm_armRx_txEmpty (s : State) (b : Bool) : (s.setArm .txEmpty b).armRx = s.armRx := rfl
@[simp] theorem State.setArm_armRx_rxFull (s : State) (b : Bool) : (s.setArm .rxFull b).armRx = b := rfl

/-- A turn of the environment's tape is taken from it. -/
theorem State.turn_cons (s : State) (t : Turn) (ts : List Turn) (h : s.turns = t :: ts) :
    s.turn = t ∧ s.afterTurn = { s with turns := ts } := by
  simp [State.turn, State.afterTurn, h]

/-- A reply of the environment's tape is taken from it. -/
theorem State.reply_cons (s : State) (b : Byte) (bs : List Byte) (h : s.replies = b :: bs) :
    s.reply = b ∧ s.afterReply = { s with replies := bs } := by
  simp [State.reply, State.afterReply, h]

end Sys2Proof.Machine
end

