-- ==== Sys2Proof/Laws/Memory.lean ====
section
/-! SUPPORT. The frame buffer: read after write, the canonical form, and what each primitive can do. -/

namespace Sys2Proof.Machine

@[simp] theorem Memory.read_write_same (m : List Host.Cell) (k : Nat) (v : Byte) :
    Memory.read (Memory.write m k v) k = some v := by
  induction m with
  | nil => simp [Memory.write, Memory.read]
  | cons c m ih =>
    simp only [Memory.write]
    split
    · simp [Memory.read]
    · split
      · simp [Memory.read]
      · simp [Memory.read, *]

theorem Memory.read_write_other (m : List Host.Cell) {k j : Nat} (v : Byte) (h : j ≠ k) :
    Memory.read (Memory.write m k v) j = Memory.read m j := by
  induction m with
  | nil => simp [Memory.write, Memory.read, h]
  | cons c m ih =>
    simp only [Memory.write]
    split
    · simp [Memory.read, h]
    · split
      · subst k; simp [Memory.read, h]
      · simp [Memory.read, ih]

theorem Memory.mem_write (m : List Host.Cell) (k : Nat) (v : Byte) :
    ∀ c ∈ Memory.write m k v, c.1 = k ∨ c ∈ m := by
  induction m with
  | nil => simp [Memory.write]
  | cons c m ih =>
    simp only [Memory.write]
    split
    · intro c hc
      rcases List.mem_cons.1 hc with rfl | h <;> simp [*]
    · split
      · intro c hc
        rcases List.mem_cons.1 hc with rfl | h <;> simp [*]
      · intro c hc
        rcases List.mem_cons.1 hc with rfl | h
        · simp
        · rcases ih c h with h | h <;> simp [h]

/-- A write keeps the canonical form. -/
theorem Memory.wf_write (m : List Host.Cell) (k : Nat) (v : Byte) (h : Memory.wf m) :
    Memory.wf (Memory.write m k v) := by
  induction m with
  | nil => simp [Memory.write]
  | cons c m ih =>
    obtain ⟨hc, hm⟩ := List.pairwise_cons.1 h
    simp only [Memory.write]
    split
    · rename_i hk
      refine List.pairwise_cons.2 ⟨?_, h⟩
      intro d hd
      rcases List.mem_cons.1 hd with rfl | hd
      · exact hk
      · exact Nat.lt_trans hk (hc d hd)
    · split
      · subst k; exact List.pairwise_cons.2 ⟨hc, hm⟩
      · refine List.pairwise_cons.2 ⟨?_, ih hm⟩
        intro d hd
        rcases Memory.mem_write m k v d hd with e | e
        · simp only [e]; omega
        · exact hc d e

/-- Reset's frame buffer has the canonical form. -/
theorem Memory.wf_reset (cfg : Config) : Memory.wf (State.resetOf cfg).fBytes := List.Pairwise.nil

/-- An address is listed iff it reads as a value. -/
theorem Memory.read_isSome_mem (m : List Host.Cell) (a : Nat) (h : (Memory.read m a).isSome = true) :
    ∃ c ∈ m, c.1 = a := by
  induction m with
  | nil => simp [Memory.read] at h
  | cons c m ih =>
    simp only [Memory.read] at h
    split at h
    · exact ⟨c, by simp, by simp [*]⟩
    · obtain ⟨d, hd, e⟩ := ih h
      exact ⟨d, by simp [hd], e⟩

/-- Storing the next byte of a frame fills one more cell. -/
theorem Memory.filled_write_next (m : List Host.Cell) (n : Nat) (v : Byte) (h : Memory.filled m n) :
    Memory.filled (Memory.write m n v) (n + 1) := by
  intro a ha
  by_cases e : a = n
  · subst e; simp
  · rw [Memory.read_write_other m v e]; exact h a (by omega)

/-- A write empties no cell. -/
theorem Memory.filled_write (m : List Host.Cell) (k n : Nat) (v : Byte) (h : Memory.filled m n) :
    Memory.filled (Memory.write m k v) n := by
  intro a ha
  by_cases e : a = k
  · subst e; simp
  · rw [Memory.read_write_other m v e]; exact h a ha

/-- All that `MemRead` can do: the byte of a filled cell in range; a fault at a cell without a value; a refusal out of
range. -/
theorem memRead_next (s : State) (a : Nat) (b : Byte) :
    memRead s a = .next b ↔ a < s.cfg.frameCap ∧ Memory.read s.fBytes a = some b := by
  unfold memRead
  split
  · rename_i h; cases hr : Memory.read s.fBytes a <;> simp [h]
  · rename_i h; simp [h]

theorem memRead_fault (s : State) (a : Nat) (e : Fault) :
    memRead s a = .fault e ↔
      e = .unwrittenFrameByte ∧ a < s.cfg.frameCap ∧ Memory.read s.fBytes a = none := by
  unfold memRead
  split
  · rename_i h; cases hr : Memory.read s.fBytes a <;> simp [h, eq_comm]
  · rename_i h; simp [h]

theorem memRead_refused (s : State) (a : Nat) (e : Refusal) :
    memRead s a = .refused e ↔ e = .frameAddressOutOfRange ∧ s.cfg.frameCap ≤ a := by
  unfold memRead
  split
  · rename_i h; cases hr : Memory.read s.fBytes a <;> simp <;> omega
  · rename_i h; simp [eq_comm]; omega

/-- All that `MemWrite` can do. -/
theorem memWrite_next (s t : State) (a : Nat) (v : Byte) :
    memWrite s a v = .next t ↔ a < s.cfg.frameCap ∧ t = { s with fBytes := Memory.write s.fBytes a v } := by
  unfold memWrite
  split
  · rename_i h; simp [h, eq_comm]
  · rename_i h; simp [h]

theorem memWrite_refused (s : State) (a : Nat) (v : Byte) (e : Refusal) :
    memWrite s a v = .refused e ↔ e = .frameAddressOutOfRange ∧ s.cfg.frameCap ≤ a := by
  unfold memWrite
  split
  · simp; omega
  · simp [eq_comm]; omega

/-- A range of filled cells reads as the bytes it holds, in address order. -/
theorem memReadRange_next (s : State) (n : Nat) :
    ∀ a bs, memReadRange s a n = .next bs ↔
      bs.length = n ∧ ∀ k (h : k < bs.length), a + k < s.cfg.frameCap ∧ Memory.read s.fBytes (a + k) = some bs[k] := by
  induction n with
  | zero => intro a bs; cases bs <;> simp [memReadRange, eq_comm]
  | succ n ih =>
    intro a bs
    constructor
    · intro h
      unfold memReadRange at h
      cases hb : memRead s a <;> simp only [hb, andThen, reduceCtorEq] at h
      rename_i b
      cases hr : memReadRange s (a + 1) n <;> simp only [hr, reduceCtorEq, Host.Outcome.next.injEq] at h
      subst h
      obtain ⟨hl, hk⟩ := (ih _ _).1 hr
      have hb := (memRead_next s a b).1 hb
      refine ⟨by simp [hl], ?_⟩
      intro k h
      cases k with
      | zero => simpa using hb
      | succ k =>
        have := hk k (by simpa using h)
        simpa [Nat.add_assoc, Nat.add_comm 1] using this
    · rintro ⟨hl, hk⟩
      cases bs with
      | nil => simp at hl
      | cons b bs =>
        have h0 := hk 0 (by simp)
        have hr : memReadRange s (a + 1) n = .next bs := by
          refine (ih _ _).2 ⟨by simpa using hl, ?_⟩
          intro k h
          have := hk (k + 1) (by simpa using h)
          simpa [Nat.add_assoc, Nat.add_comm 1] using this
        have hb : memRead s a = .next b := (memRead_next s a b).2 (by simpa using h0)
        simp [memReadRange, hb, hr, andThen]

end Sys2Proof.Machine
end

