-- ==== Sys2Proof/Laws/Ops.lean ====
section
/-! SUPPORT. One law for each shared operation: everything it can do. Later proofs cite these and unfold nothing. -/

namespace Sys2Proof.Machine

/-! ### Sequencing -/

@[simp] theorem andThen_value {α β : Type} (a : α) (f : α → Result β) : andThen (.next a) f = f a := rfl

/-- A sequence answers next iff its first part does and the rest does from there. -/
theorem andThen_next {α β : Type} (r : Result α) (f : α → Result β) (b : β) :
    andThen r f = .next b ↔ ∃ a, r = .next a ∧ f a = .next b := by
  cases r <;> simp [andThen]

theorem onNext_next (f : State → State) (r : Result State) (u : State) :
    onNext f r = .next u ↔ ∃ t, r = .next t ∧ f t = u := by
  simp [onNext, andThen_next]

/-! ### Turns -/

theorem step_run (s : State) (h : s.turn = .run) : step s = runTurn s.afterTurn := by simp [step, takeTurn, h]
theorem step_interrupt (s : State) (h : s.turn = .interrupt) : step s = .next s.afterTurn.deliver := by
  simp [step, takeTurn, h]
theorem step_delayDone (s : State) (h : s.turn = .delayDone) : step s = .next s.afterTurn.delayDone := by
  simp [step, takeTurn, h]
theorem step_present (s : State) (w : Word16) (h : s.turn = .present w) :
    step s = .next (s.afterTurn.presentCommand w) := by simp [step, takeTurn, h]
theorem step_reset (s : State) (h : s.turn = .reset) : step s = .next s.afterTurn.resetBlock := by
  simp [step, takeTurn, h]

/-! ### The processor's turn -/

theorem runTurn_command (s : State) (i : Instr) (h : fetch s = .command i) : runTurn s = exec i s.acceptCommand := by
  simp [runTurn, h]
theorem runTurn_illegal (s : State) (e : DecodeError) (h : fetch s = .illegalCommand e) :
    runTurn s = .next s.acceptCommand.rejectCommand := by simp [runTurn, h]
theorem runTurn_request (s : State) (i : Instr) (h : fetch s = .request i) :
    runTurn s = andThen (exec i s) resume := by simp [runTurn, h]
theorem runTurn_action (s : State) (h : fetch s = .action) : runTurn s = action s := by simp [runTurn, h]
theorem runTurn_waiting (s : State) (h : fetch s = .waiting) : runTurn s = .next s := by simp [runTurn, h]

/-- The sequencer presents a request and has the processor: that request is fetched. -/
theorem fetch_sequencer_request (s : State) (r : Request) (i : Instr) (hh : s.hdl = .idle) (hd : s.delayBusy = false)
    (hr : s.sreq = some r) (hi : decodeRequest r = .ok i) : fetch s = .request i := by
  simp [fetch, fetchSequencer, fetchRequest, hh, hd, hr, hi]

/-- The handler presents a request: that request is fetched, whatever the sequencer presents. -/
theorem fetch_handler_request (s : State) (r : Request) (i : Instr) (hh : s.hdl ≠ .idle)
    (hr : s.hreq = some r) (hi : decodeRequest r = .ok i) : fetch s = .request i := by
  simp [fetch, fetchHandler, fetchRequest, hh, hr, hi]

/-- A block at rest with a command word at the head of its port fetches that word. -/
theorem fetch_command_word (s : State) (w : Word16) (ws : List Word16) (hh : s.hdl = .idle) (hd : s.delayBusy = false)
    (hr : s.sreq = none) (hs : s.seq = .rest) (hp : s.pstate = .idle) (hc : s.cmds = w :: ws) :
    fetch s = match decodeHost w with
      | .ok i => .command i
      | .error e => .illegalCommand e := by
  simp only [fetch, fetchSequencer, fetchCommand, hh, hd, hr, hs, hp, hc, if_true]
  cases decodeHost w <;> rfl

/-- Between two requests the sequencer acts. -/
theorem fetch_action (s : State) (hh : s.hdl = .idle) (hd : s.delayBusy = false) (hr : s.sreq = none)
    (hs : s.seq ≠ .rest) : fetch s = .action := by
  simp [fetch, fetchSequencer, hh, hd, hr, hs]

/-- An outstanding delay holds the sequencer. -/
theorem fetch_delay (s : State) (hh : s.hdl = .idle) (hd : s.delayBusy = true) : fetch s = .waiting := by
  simp [fetch, fetchSequencer, hh, hd]

/-- While an operation is in flight, whatever `pstate`, no command word is accepted (R80, R81). -/
theorem fetch_busy (s : State) (h : s.pstate ≠ .idle ∨ s.seq ≠ .rest) :
    (∀ i, fetch s ≠ .command i) ∧ ∀ e, fetch s ≠ .illegalCommand e := by
  unfold fetch fetchSequencer fetchCommand fetchHandler fetchRequest
  rcases h with h | h <;> simp only [h, if_false] <;> constructor <;> intro x <;> (repeat' split) <;> simp

theorem resume_sequencer (s : State) (hh : s.hdl = .idle) : resume s = seqResume s := by simp [resume, hh]
theorem resume_handler (s : State) (hh : s.hdl ≠ .idle) : resume s = hdlResume s := by simp [resume, hh]
theorem action_sequencer (s : State) (hh : s.hdl = .idle) : action s = seqAction s := by simp [action, hh]

/-! ### Where a source is enabled and disabled -/

/-- The sequencer enables each source at one place (R108). -/
theorem seqRequest_enable (s : State) (p : SeqPos) (src : Source) (h : seqRequest s p = some (.tEnableInterrupt src)) :
    p = match src with
      | .txEmpty => .enableTx
      | .rxFull => .enableRx := by cases p <;> cases src <;> simp [seqRequest] at h ⊢

/-- The sequencer disables each source at one place (R113). -/
theorem seqRequest_disable (s : State) (p : SeqPos) (src : Source) (h : seqRequest s p = some (.tDisableInterrupt src)) :
    p = match src with
      | .txEmpty => .toDisableTx
      | .rxFull => .toDisableRx := by cases p <;> cases src <;> simp [seqRequest] at h ⊢

/-- The handler disables each source at one place (R162, R163). -/
theorem hdlRequest_disable (s : State) (p : HdlPos) (src : Source) (h : hdlRequest s p = some (.tDisableInterrupt src)) :
    p = match src with
      | .txEmpty => .txDisable
      | .rxFull => .rxDisable := by cases p <;> cases src <;> simp [hdlRequest] at h ⊢

/-- The handler enables no source (R161). -/
theorem hdlRequest_enable (s : State) (p : HdlPos) (src : Source) : hdlRequest s p ≠ some (.tEnableInterrupt src) := by
  cases p <;> simp [hdlRequest]

/-! ### The handler's return -/

/-- A run's end with no delivery remembered, or with nothing armed any more, gives the sequencer back the processor. -/
theorem leaveHandler_returns (s : State) (h : (s.irqPending && s.canDeliver) = false) :
    s.leaveHandler = { s with irqPending := false }.hdlGoTo .idle := by simp [State.leaveHandler, h]

/-- A run's end with a delivery remembered and a source armed begins a new run. -/
theorem leaveHandler_again (s : State) (h : (s.irqPending && s.canDeliver) = true) :
    s.leaveHandler = s.enterHandler := by simp [State.leaveHandler, h]

/-! ### Waits -/

/-- A failed observation of an unbounded wait is made again, and nothing is counted. -/
theorem failedObservation_unbounded (s : State) (p : SeqPos) (h : s.cfg.waitLimit = none) :
    s.failedObservation p = s.goTo p := by simp [State.failedObservation, h]

/-- A failed observation below the limit is counted and made again. -/
theorem failedObservation_again (s : State) (p : SeqPos) (n : Nat) (h : s.cfg.waitLimit = some n)
    (hn : s.wcnt + 1 ≠ n) : s.failedObservation p = { s with wcnt := s.wcnt + 1 }.goTo p := by
  simp [State.failedObservation, h, hn]

/-- The failed observation that reaches the limit starts the timeout. -/
theorem failedObservation_timeout (s : State) (p : SeqPos) (n : Nat) (h : s.cfg.waitLimit = some n)
    (hn : s.wcnt + 1 = n) : s.failedObservation p = { s with wcnt := s.wcnt + 1 }.startTimeout := by
  simp [State.failedObservation, h, hn]

/-! ### Validation -/

theorem crc8_ok (cap : Nat) (b : Byte) (bs : List Byte) (h : bs.length + 1 ≤ cap) :
    crc8 cap (b :: bs) (bs.length + 1) = .ok (crcLoop b bs) := by
  have : ¬ cap < bs.length + 1 := by omega
  simp [crc8, this]

/-- What validation does to a frame of two bytes or more, all of whose cells hold a value. -/
theorem validate_frame (s : State) (b last : Byte) (bs : List Byte) (hl : s.fLength = bs.length + 2)
    (hc : s.fLength ≤ s.cfg.frameCap) (hp : memReadRange s 0 (bs.length + 1) = .next (b :: bs))
    (hr : memRead s (bs.length + 1) = .next last) :
    validate s = .next (.ok (s.recordCheck (~~~last) (crcLoop b bs))) := by
  have h1 : ¬ (s.fLength < 2 ∨ s.cfg.frameCap < s.fLength) := by omega
  have h2 : s.fLength - 1 = bs.length + 1 := by omega
  unfold validate
  rw [if_neg h1, h2, hr, andThen_value, hp, andThen_value, crc8_ok _ _ _ (by omega)]

/-- A length below two or over the capacity is refused with nothing written. -/
theorem validate_malformed (s : State) (h : s.fLength < 2 ∨ s.cfg.frameCap < s.fLength) :
    validate s = .next (.error .malformedRequest) := by unfold validate; rw [if_pos h]

end Sys2Proof.Machine
end

