-- ==== Sys2Proof/Laws/PerInstr.lean ====
section
/-! SUPPORT. Statements made once per instruction. `EncodeFits`: an instruction's word is the word of its own port, with
the operation code of its table row and a zero pad (R50, R53, R57, R59). -/

namespace Sys2Proof.Laws

/-- The port an instruction belongs to, with its operation code there (R53, R57); the delay port has no code (R59). -/
inductive EncodeFits.Place where
  | host (op : BitVec 4)
  | transport (op : BitVec 4)
  | delay
deriving DecidableEq, Repr

/-- The place of each instruction, from the tables of R53, R57 and R59. -/
def EncodeFits.place : Instr → EncodeFits.Place
  | .setup => .host 1#4
  | .capture _ => .host 2#4
  | .rdframe _ => .host 3#4
  | .rdlen => .host 4#4
  | .rdrxcrc => .host 5#4
  | .rdccrc => .host 6#4
  | .rderr => .host 7#4
  | .clrerr => .host 8#4
  | .tEnable => .transport 0#4
  | .tDisable => .transport 1#4
  | .tAssertSelect => .transport 2#4
  | .tDeassertSelect => .transport 3#4
  | .tSetWordCount _ => .transport 4#4
  | .tSetFifoTriggerLevel _ => .transport 5#4
  | .tTransmit _ => .transport 6#4
  | .tReceive => .transport 7#4
  | .tTransferComplete => .transport 8#4
  | .tInterruptStatus => .transport 9#4
  | .tEnableInterrupt _ => .transport 10#4
  | .tDisableInterrupt _ => .transport 11#4
  | .tClearInterrupt _ => .transport 12#4
  | .tConfigure _ _ => .transport 13#4
  | .dWaitTicks _ => .delay

/-- A port word stands at a place: its operation code is the place's and bits 11..8 are zero. -/
def EncodeFits.standsAt (p : PortWord) : EncodeFits.Place → Prop
  | .host op => ∃ w, p = .host w ∧ opField w = op ∧ padField w = 0#4
  | .transport op => ∃ w, p = .request (.transport w) ∧ opField w = op ∧ padField w = 0#4
  | .delay => ∃ n, p = .request (.delay n)

/-- The word of an instruction stands at its place. -/
def EncodeFits.Statement (i : Instr) : Prop := EncodeFits.standsAt (encode i) (EncodeFits.place i)

theorem EncodeFits.setup : EncodeFits.Statement .setup := ⟨_, rfl, by simp, by simp⟩
theorem EncodeFits.capture (a : Byte) : EncodeFits.Statement (.capture a) := ⟨_, rfl, by simp, by simp⟩
theorem EncodeFits.rdframe (a : Byte) : EncodeFits.Statement (.rdframe a) := ⟨_, rfl, by simp, by simp⟩
theorem EncodeFits.rdlen : EncodeFits.Statement .rdlen := ⟨_, rfl, by simp, by simp⟩
theorem EncodeFits.rdrxcrc : EncodeFits.Statement .rdrxcrc := ⟨_, rfl, by simp, by simp⟩
theorem EncodeFits.rdccrc : EncodeFits.Statement .rdccrc := ⟨_, rfl, by simp, by simp⟩
theorem EncodeFits.rderr : EncodeFits.Statement .rderr := ⟨_, rfl, by simp, by simp⟩
theorem EncodeFits.clrerr : EncodeFits.Statement .clrerr := ⟨_, rfl, by simp, by simp⟩
theorem EncodeFits.tEnable : EncodeFits.Statement .tEnable := ⟨_, rfl, by simp, by simp⟩
theorem EncodeFits.tDisable : EncodeFits.Statement .tDisable := ⟨_, rfl, by simp, by simp⟩
theorem EncodeFits.tAssertSelect : EncodeFits.Statement .tAssertSelect := ⟨_, rfl, by simp, by simp⟩
theorem EncodeFits.tDeassertSelect : EncodeFits.Statement .tDeassertSelect := ⟨_, rfl, by simp, by simp⟩
theorem EncodeFits.tSetWordCount (n : Byte) : EncodeFits.Statement (.tSetWordCount n) := ⟨_, rfl, by simp, by simp⟩
theorem EncodeFits.tSetFifoTriggerLevel (n : Byte) : EncodeFits.Statement (.tSetFifoTriggerLevel n) := ⟨_, rfl, by simp, by simp⟩
theorem EncodeFits.tTransmit (b : Byte) : EncodeFits.Statement (.tTransmit b) := ⟨_, rfl, by simp, by simp⟩
theorem EncodeFits.tReceive : EncodeFits.Statement .tReceive := ⟨_, rfl, by simp, by simp⟩
theorem EncodeFits.tTransferComplete : EncodeFits.Statement .tTransferComplete := ⟨_, rfl, by simp, by simp⟩
theorem EncodeFits.tInterruptStatus : EncodeFits.Statement .tInterruptStatus := ⟨_, rfl, by simp, by simp⟩
theorem EncodeFits.tEnableInterrupt (src : Source) : EncodeFits.Statement (.tEnableInterrupt src) := ⟨_, rfl, by simp, by simp⟩
theorem EncodeFits.tDisableInterrupt (src : Source) : EncodeFits.Statement (.tDisableInterrupt src) := ⟨_, rfl, by simp, by simp⟩
theorem EncodeFits.tClearInterrupt (src : Source) : EncodeFits.Statement (.tClearInterrupt src) := ⟨_, rfl, by simp, by simp⟩
theorem EncodeFits.tConfigure (m : ChannelMode) (f : Bool) : EncodeFits.Statement (.tConfigure m f) := ⟨_, rfl, by simp, by simp⟩
theorem EncodeFits.dWaitTicks (n : Nat) : EncodeFits.Statement (.dWaitTicks n) := ⟨_, rfl⟩

end Sys2Proof.Laws
end

