-- ==== Sys2Proof/Laws/Step.lean ====
section
/-! SUPPORT. What a step can do, said once: `step_cases` takes the step apart, and one law for each part it finds
(`exec_port_law`, `exec_host_law`, `seqResume_law`, `hdlResume_law`, `seqAction_law`) says everything that part can
change. An invariant, a frame or a write right is then a case analysis over these. -/

namespace Sys2Proof

/-! ### Which port an operation is of -/

/-- The operation is one of the eight host operations (R53). -/
def Instr.isHostOp : Instr → Bool
  | .setup => true
  | .capture _ => true
  | .rdframe _ => true
  | .rdlen => true
  | .rdrxcrc => true
  | .rdccrc => true
  | .rderr => true
  | .clrerr => true
  | .tEnable => false
  | .tDisable => false
  | .tAssertSelect => false
  | .tDeassertSelect => false
  | .tSetWordCount _ => false
  | .tSetFifoTriggerLevel _ => false
  | .tTransmit _ => false
  | .tReceive => false
  | .tTransferComplete => false
  | .tInterruptStatus => false
  | .tEnableInterrupt _ => false
  | .tDisableInterrupt _ => false
  | .tClearInterrupt _ => false
  | .tConfigure _ _ => false
  | .dWaitTicks _ => false

theorem withoutArg_cases (e : DecodeError) (a : Byte) (i j : Instr) (h : withoutArg e a i = .ok j) : j = i :=
  ((withoutArg_ok e a i j).1 h).2

/-- The command port accepts host operations only. -/
theorem decodeHost_hostOp (w : Word16) (i : Instr) (h : decodeHost w = .ok i) : i.isHostOp = true := by
  unfold decodeHost at h
  split at h
  · cases h
  · split at h <;> first | (rw [withoutArg_cases _ _ _ _ h]; rfl) | (cases h; rfl) | cases h

/-- The request ports accept no host operation. -/
theorem decodeRequest_portOp (r : Request) (i : Instr) (h : decodeRequest r = .ok i) : i.isHostOp = false := by
  cases r with
  | delay n => cases h; rfl
  | transport w =>
    unfold decodeRequest decodeTransport at h
    simp only at h
    split at h
    · cases h
    · split at h <;> first
        | (rw [withoutArg_cases _ _ _ _ h]; rfl)
        | (unfold decodeSource at h; split at h <;> first | (cases h; rfl) | cases h)
        | (unfold decodeSettings at h; split at h <;> first | (cases h; rfl) | cases h)
        | (cases h; rfl)
        | cases h

end Sys2Proof

namespace Sys2Proof.Machine

/-! ### Runs -/

@[simp] theorem runSteps_zero (s : State) : runSteps 0 s = .next s := rfl

/-- The first step of a run, then the rest. -/
theorem runSteps_succ (n : Nat) (s t : State) (h : step s = .next t) : runSteps (n + 1) s = runSteps n t := by
  simp [runSteps, Host.Core.run, Sys2Proof.core, h]

/-- A run of one step is that step. -/
theorem runSteps_one (s t : State) (h : step s = .next t) : runSteps 1 s = .next t := by
  rw [runSteps_succ 0 s t h, runSteps_zero]

/-- Two runs one after the other. -/
theorem runSteps_add (m n : Nat) (s t : State) (h : runSteps m s = .next t) : runSteps (m + n) s = runSteps n t := by
  induction m generalizing s with
  | zero => simp only [runSteps_zero, Host.Outcome.next.injEq] at h; subst h; simp
  | succ m ih =>
    cases hs : step s with
    | next u =>
      rw [runSteps_succ _ _ u hs] at h
      rw [show m + 1 + n = (m + n) + 1 by omega, runSteps_succ _ _ u hs]
      exact ih u h
    | fault e => simp [runSteps, Host.Core.run, Sys2Proof.core, hs] at h
    | refused e => simp [runSteps, Host.Core.run, Sys2Proof.core, hs] at h

/-! ### A step, taken apart -/

/-- What a request makes of the arm bit of a source (R20). -/
def armAfter (i : Instr) (src : Source) (b : Bool) : Bool :=
  if i = .tEnableInterrupt src then true else if i = .tDisableInterrupt src then false else b

/-- What making the request `i` can do: it enters the history, a reply may be drawn, a delay may begin, the arm bits
follow `armAfter`; nothing else changes. -/
structure PortMade (i : Instr) (s u : State) : Prop where
  cfg : u.cfg = s.cfg
  fBytes : u.fBytes = s.fBytes
  fLength : u.fLength = s.fLength
  receivedCRC : u.receivedCRC = s.receivedCRC
  computedCRC : u.computedCRC = s.computedCRC
  pstate : u.pstate = s.pstate
  idx : u.idx = s.idx
  errorFlag : u.errorFlag = s.errorFlag
  ready : u.ready = s.ready
  configured : u.configured = s.configured
  dCid : u.dCid = s.dCid
  dHascode : u.dHascode = s.dHascode
  dCode : u.dCode = s.dCode
  dSettle : u.dSettle = s.dSettle
  wcnt : u.wcnt = s.wcnt
  seq : u.seq = s.seq
  sreq : u.sreq = s.sreq
  hdl : u.hdl = s.hdl
  hreq : u.hreq = s.hreq
  hk : u.hk = s.hk
  hDoRx : u.hDoRx = s.hDoRx
  irqPending : u.irqPending = s.irqPending
  cmds : u.cmds = s.cmds
  responses : u.responses = s.responses
  turns : u.turns = s.turns
  trace : ∃ rep, u.trace = s.trace ++ [⟨s.context, i, rep⟩]
  armTx : u.armTx = armAfter i .txEmpty s.armTx
  armRx : u.armRx = armAfter i .rxFull s.armRx

/-- Every request a decoder of the two request ports accepts completes, and does no more than `PortMade` says. -/
theorem exec_port_law (i : Instr) (r : Request) (hd : decodeRequest r = .ok i) (s : State) :
    ∃ u, exec i s = .next u ∧ PortMade i s u := by
  have hq := decodeRequest_portOp r i hd
  cases i <;> simp only [Instr.isHostOp, Bool.true_eq_false] at hq
  case tEnableInterrupt src => cases src <;> exact ⟨_, rfl, by constructor <;> first | rfl | exact ⟨_, rfl⟩⟩
  case tDisableInterrupt src => cases src <;> exact ⟨_, rfl, by constructor <;> first | rfl | exact ⟨_, rfl⟩⟩
  all_goals
    refine ⟨_, rfl, ?_⟩
    constructor <;> first | rfl | exact ⟨_, rfl⟩ | simp [armAfter]

/-- Everything a step that answers next can be: what was found to do, the guards under which it is found, and what was
done. -/
inductive StepCase (s t : State) : Prop
  | interrupt (h : s.turn = .interrupt) (e : t = s.afterTurn.deliver)
  | delayDone (h : s.turn = .delayDone) (e : t = s.afterTurn.delayDone)
  | present (w : Word16) (h : s.turn = .present w) (e : t = s.afterTurn.presentCommand w)
  | reset (h : s.turn = .reset) (e : t = s.afterTurn.resetBlock)
  | command (h : s.turn = .run) (i : Instr) (hf : fetch s.afterTurn = .command i) (hi : i.isHostOp = true)
      (hh : s.hdl = .idle) (hs : s.seq = .rest)
          (hp : s.pstate = .idle) (e : exec i s.afterTurn.acceptCommand = .next t)
  | illegal (h : s.turn = .run) (x : DecodeError) (hf : fetch s.afterTurn = .illegalCommand x) (hh : s.hdl = .idle)
      (hs : s.seq = .rest) (hp : s.pstate = .idle) (e : t = s.afterTurn.acceptCommand.rejectCommand)
  | sequencerRequest (h : s.turn = .run) (i : Instr) (r : Request) (u : State) (hh : s.hdl = .idle)
      (hb : s.delayBusy = false) (hr : s.sreq = some r) (hd : decodeRequest r = .ok i)
      (he : exec i s.afterTurn = .next u) (made : PortMade i s.afterTurn u) (e : seqResume u = .next t)
  | handlerRequest (h : s.turn = .run) (i : Instr) (r : Request) (u : State) (hh : s.hdl ≠ .idle)
      (hr : s.hreq = some r) (hd : decodeRequest r = .ok i) (he : exec i s.afterTurn = .next u)
      (made : PortMade i s.afterTurn u) (e : hdlResume u = .next t)
  | sequencerAction (h : s.turn = .run) (hh : s.hdl = .idle) (hb : s.delayBusy = false) (hr : s.sreq = none)
      (hs : s.seq ≠ .rest) (e : seqAction s.afterTurn = .next t)
  | handlerAction (h : s.turn = .run) (hh : s.hdl ≠ .idle) (hr : s.hreq = none) (e : t = s.afterTurn.hdlGoTo s.hdl)
  | waiting (h : s.turn = .run) (hh : s.hdl = .idle) (hf : fetch s.afterTurn = .waiting)
      (hb : s.delayBusy = true ∨ s.seq = .rest) (e : t = s.afterTurn)

/-- The one place where the step is taken apart. -/
theorem step_cases (s t : State) (h : step s = .next t) : StepCase s t := by
  unfold step at h
  cases ht : s.turn with
  | interrupt => rw [ht] at h; exact .interrupt ht (by simpa [takeTurn, eq_comm] using h)
  | delayDone => rw [ht] at h; exact .delayDone ht (by simpa [takeTurn, eq_comm] using h)
  | present w => rw [ht] at h; exact .present w ht (by simpa [takeTurn, eq_comm] using h)
  | reset => rw [ht] at h; exact .reset ht (by simpa [takeTurn, eq_comm] using h)
  | run =>
    rw [ht] at h
    simp only [takeTurn, runTurn] at h
    by_cases hh : s.hdl = .idle
    · cases hb : s.delayBusy
      · cases hr : s.sreq with
        | some r =>
          have hf : fetch s.afterTurn = fetchRequest r := by simp [fetch, fetchSequencer, hh, hb, hr]
          cases hd : decodeRequest r with
          | ok i =>
            simp only [hf, fetchRequest, hd] at h
            obtain ⟨u, hu, dl⟩ := exec_port_law i r hd s.afterTurn
            rw [hu] at h
            simp only [andThen, resume, dl.hdl, State.afterTurn_hdl, hh, if_true] at h
            exact .sequencerRequest ht i r u hh hb hr hd hu dl h
          | error e => simp [hf, fetchRequest, hd] at h
        | none =>
          by_cases hs : s.seq = .rest
          · have hf : fetch s.afterTurn = fetchCommand s.afterTurn := by simp [fetch, fetchSequencer, hh, hb, hr, hs]
            rw [hf] at h
            unfold fetchCommand at h hf
            by_cases hp : s.pstate = .idle
            · simp only [State.afterTurn_pstate, hp, if_true, State.afterTurn_cmds] at h hf
              cases hc : s.cmds with
              | nil => simp only [hc] at h hf; exact .waiting ht hh hf (.inr hs) (by simpa [eq_comm] using h)
              | cons w ws =>
                simp only [hc] at h hf
                cases hd : decodeHost w with
                | ok i => simp only [hd] at h hf; exact .command ht i hf (decodeHost_hostOp w i hd) hh hs hp h
                | error e => simp only [hd] at h hf; exact .illegal ht e hf hh hs hp (by simpa [eq_comm] using h)
            · simp only [State.afterTurn_pstate, hp, if_false] at h hf
              exact .waiting ht hh hf (.inr hs) (by simpa [eq_comm] using h)
          · have hf : fetch s.afterTurn = .action := by simp [fetch, fetchSequencer, hh, hb, hr, hs]
            rw [hf] at h
            exact .sequencerAction ht hh hb hr hs (by simpa [action, hh] using h)
      · have hf : fetch s.afterTurn = .waiting := by simp [fetch, fetchSequencer, hh, hb]
        rw [hf] at h
        exact .waiting ht hh hf (.inl hb) (by simpa [eq_comm] using h)
    · cases hr : s.hreq with
      | some r =>
        have hf : fetch s.afterTurn = fetchRequest r := by simp [fetch, fetchHandler, hh, hr]
        cases hd : decodeRequest r with
        | ok i =>
          simp only [hf, fetchRequest, hd] at h
          obtain ⟨u, hu, dl⟩ := exec_port_law i r hd s.afterTurn
          rw [hu] at h
          simp only [andThen, resume, dl.hdl, State.afterTurn_hdl, hh, if_false] at h
          exact .handlerRequest ht i r u hh hr hd hu dl h
        | error e => simp [hf, fetchRequest, hd] at h
      | none =>
        have hf : fetch s.afterTurn = .action := by simp [fetch, fetchHandler, hh, hr]
        rw [hf] at h
        exact .handlerAction ht hh hr (by simpa [action, hh, eq_comm] using h)

/-- What the sequencer can do when its request is complete. -/
structure SeqResumed (u t : State) : Prop where
  cfg : t.cfg = u.cfg
  receivedCRC : t.receivedCRC = u.receivedCRC
  computedCRC : t.computedCRC = u.computedCRC
  errorFlag : t.errorFlag = u.errorFlag
  ready : t.ready = u.ready
  configured : t.configured = u.configured ∨ (t.configured = true ∧ u.seq = .configure)
  dCid : t.dCid = u.dCid
  dHascode : t.dHascode = u.dHascode
  dCode : t.dCode = u.dCode
  dSettle : t.dSettle = u.dSettle
  hdl : t.hdl = u.hdl
  hreq : t.hreq = u.hreq
  hk : t.hk = u.hk
  armTx : t.armTx = u.armTx
  armRx : t.armRx = u.armRx
  irqPending : t.irqPending = u.irqPending
  trace : t.trace = u.trace
  cmds : t.cmds = u.cmds
  fBytes : t.fBytes = u.fBytes ∨ u.seq = .receive
  fLength : t.fLength = u.fLength ∨ (u.seq = .toDisable ∧ t.fLength = 0 ∧ t.responses = u.responses ++ [0x3000#16])
  responses : t.responses = u.responses ∨
    (u.seq = .configure ∧ t.seq = .rest ∧ ∃ w, t.responses = u.responses ++ [w]) ∨
    (u.seq = .toDisable ∧ t.seq = .rest ∧ t.responses = u.responses ++ [0x3000#16])
  seq : u.seq ≠ .configure → u.seq ≠ .toDisable → u.seq ≠ .rest → t.seq ≠ .rest
  pstate : t.pstate = u.pstate ∨ (u.seq = .enable ∧ t.pstate = .configured) ∨
    (u.seq = .disable ∧ t.pstate = .csDeasserted) ∨
    (u.seq = .toDisable ∧ t.pstate = .idle ∧ t.responses = u.responses ++ [0x3000#16])
  atRest : u.seq = .rest → t.seq = .rest

theorem timeoutWord : responseWord .timeout 0#8 = 0x3000#16 := by decide

theorem goTo_resumed (u v : State) (p : SeqPos) (h : SeqResumed u v) (hp : p ≠ .rest) (hu : u.seq ≠ .rest)
    (hv : v.responses = u.responses) : SeqResumed u (v.goTo p) := by
  obtain ⟨⟩ := h
  constructor <;> first | assumption | simp_all

theorem seqResumed_refl (u : State) : SeqResumed u u := by
  constructor <;> simp

theorem failedObservation_resumed (u : State) (p : SeqPos) (hp : p ≠ .rest) (hu : u.seq ≠ .rest)
    : SeqResumed u (u.failedObservation p) := by
  unfold State.failedObservation State.startTimeout
  split
  · exact goTo_resumed _ _ _ (seqResumed_refl u) hp hu rfl
  · split
    · split <;> (constructor <;> simp_all)
    · constructor <;> simp_all

theorem nextByte_resumed (u : State) (hu : u.seq ≠ .rest) : SeqResumed u u.nextByte := by
  unfold State.nextByte State.startWait
  split
  · constructor <;> simp_all
  · split
    · constructor <;> simp_all
    · split <;> (constructor <;> simp_all)

theorem seqResume_law (u t : State) (h : seqResume u = .next t) : SeqResumed u t := by
  unfold seqResume at h
  cases hs : u.seq <;> simp only [hs] at h
  case rest => cases h; constructor <;> simp_all
  case configure =>
    simp only [Host.Outcome.next.injEq] at h; subst h
    unfold State.endSetup State.retire
    split <;> constructor <;> simp_all [State.goTo]
  case receive =>
    unfold storeReceived at h
    obtain ⟨v, hv, h⟩ := (andThen_next _ _ _).1 h
    rw [memWrite_next] at hv
    obtain ⟨_, rfl⟩ := hv
    simp only [Host.Outcome.next.injEq] at h; subst h
    have := nextByte_resumed { u with fBytes := Memory.write u.fBytes u.idx u.tqRd, idx := u.idx + 1 } (by simp [hs])
    obtain ⟨⟩ := this
    constructor <;> first | assumption | simp_all
  case toDisable =>
    simp only [Host.Outcome.next.injEq] at h; subst h
    constructor <;> simp [State.endTimeout, State.retire, hs, HostError.status, timeoutWord]
  case observe =>
    simp only [Host.Outcome.next.injEq] at h; subst h
    split
    · constructor <;> simp_all
    · exact failedObservation_resumed u _ (by simp) (by simp [hs])
  case transmit =>
    simp only [Host.Outcome.next.injEq] at h; subst h
    unfold State.afterTransmit State.startWait
    split
    · constructor <;> simp_all
    · exact nextByte_resumed u (by simp [hs])
  case setWordCount =>
    simp only [Host.Outcome.next.injEq] at h; subst h
    split <;> constructor <;> simp_all
  case enableRx =>
    simp only [Host.Outcome.next.injEq] at h; subst h
    unfold State.startWait
    constructor <;> simp_all
  all_goals
    simp only [Host.Outcome.next.injEq] at h; subst h
    constructor <;> simp_all

/-- What the handler can do when its request is complete. -/
structure HdlResumed (u t : State) : Prop where
  cfg : t.cfg = u.cfg
  fLength : t.fLength = u.fLength
  receivedCRC : t.receivedCRC = u.receivedCRC
  computedCRC : t.computedCRC = u.computedCRC
  pstate : t.pstate = u.pstate
  idx : t.idx = u.idx
  errorFlag : t.errorFlag = u.errorFlag
  configured : t.configured = u.configured
  dCid : t.dCid = u.dCid
  dHascode : t.dHascode = u.dHascode
  dCode : t.dCode = u.dCode
  dSettle : t.dSettle = u.dSettle
  wcnt : t.wcnt = u.wcnt
  seq : t.seq = u.seq
  sreq : t.sreq = u.sreq
  delayBusy : t.delayBusy = u.delayBusy
  cmds : t.cmds = u.cmds
  responses : t.responses = u.responses
  trace : t.trace = u.trace
  armTx : t.armTx = u.armTx
  armRx : t.armRx = u.armRx
  ready : t.ready = u.ready ∨ (t.ready = true ∧ u.hdl = .rxClear)
  fBytes : t.fBytes = u.fBytes ∨ u.hdl = .rxReceive

theorem leaveHandler_resumed (u : State) : HdlResumed u u.leaveHandler := by
  unfold State.leaveHandler State.enterHandler; split <;> constructor <;> simp

theorem drainNext_resumed (u : State) : HdlResumed u u.drainNext := by
  unfold State.drainNext; split <;> constructor <;> simp

theorem hdlAfterTx_resumed (u : State) : HdlResumed u u.hdlAfterTx := by
  unfold State.hdlAfterTx; split
  · obtain ⟨⟩ := drainNext_resumed { u with hk := 0 }; constructor <;> assumption
  · exact leaveHandler_resumed u

theorem hdlResume_law (u t : State) (h : hdlResume u = .next t) : HdlResumed u t := by
  unfold hdlResume at h
  cases hs : u.hdl <;> simp only [hs] at h
  case rxReceive =>
    unfold hdlStore at h
    obtain ⟨v, hv, h⟩ := (andThen_next _ _ _).1 h
    rw [memWrite_next] at hv
    obtain ⟨_, rfl⟩ := hv
    simp only [Host.Outcome.next.injEq] at h; subst h
    obtain ⟨⟩ := drainNext_resumed { u with fBytes := Memory.write u.fBytes u.hk u.tqRd, hk := u.hk + 1 }
    constructor <;> first | assumption | simp_all
  case status =>
    simp only [Host.Outcome.next.injEq] at h; subst h
    unfold State.hdlServe
    split
    · constructor <;> simp
    · obtain ⟨⟩ := hdlAfterTx_resumed { u with hDoRx := reported u.tqRd .rxFull && u.armRx };
      constructor <;> assumption
  case txClear => simp only [Host.Outcome.next.injEq] at h; subst h; exact hdlAfterTx_resumed u
  case rxClear =>
    simp only [Host.Outcome.next.injEq] at h; subst h
    obtain ⟨⟩ := leaveHandler_resumed { u with ready := true }
    constructor <;> first | assumption | simp_all
  all_goals
    simp only [Host.Outcome.next.injEq] at h; subst h
    constructor <;> simp

/-- What the sequencer can do between two requests. -/
structure SeqActed (s t : State) : Prop where
  cfg : t.cfg = s.cfg
  fBytes : t.fBytes = s.fBytes
  fLength : t.fLength = s.fLength
  configured : t.configured = s.configured
  dCid : t.dCid = s.dCid
  dHascode : t.dHascode = s.dHascode
  dCode : t.dCode = s.dCode
  dSettle : t.dSettle = s.dSettle
  armTx : t.armTx = s.armTx
  armRx : t.armRx = s.armRx
  hdl : t.hdl = s.hdl
  trace : t.trace = s.trace
  cmds : t.cmds = s.cmds
  receivedCRC : (t.receivedCRC = s.receivedCRC ∧ t.computedCRC = s.computedCRC ∧ t.errorFlag = s.errorFlag) ∨
    (s.seq = .validate ∧ t.errorFlag = stickyAfter s.errorFlag (verdictOf t.receivedCRC t.computedCRC))
  ready : t.ready = s.ready ∨ (t.ready = false ∧ s.seq = .opening ∧ s.cfg.discipline = .interrupt)
  responses : t.responses = s.responses ∨ (t.seq = .rest ∧ (s.seq = .respond ∨
    s.seq = .validate) ∧ ∃ w, t.responses = s.responses ++ [w])
  seq : s.seq ≠ .respond → s.seq ≠ .rest → t.responses = s.responses → t.seq ≠ .rest
  answers : s.seq = .respond → ∃ w, t.responses = s.responses ++ [w]
  pstate : t.pstate = s.pstate ∨ (s.seq = .settle ∧ t.pstate = .csAsserted) ∨
    (s.seq = .opening ∧ t.pstate = .transferring) ∨ (s.seq = .validate ∧ t.pstate = .validated) ∨
    (s.seq = .respond ∧ t.pstate = .idle)

theorem goTo_acted (s : State) (p : SeqPos) (h : p ≠ .rest) (hs : s.seq ≠ .respond) : SeqActed s (s.goTo p) := by
  constructor <;> simp_all

theorem seqAction_law (s t : State) (hn : s.seq ≠ .rest) (h : seqAction s = .next t) : SeqActed s t := by
  unfold seqAction at h
  cases hs : s.seq <;> simp only [hs] at h
  case rest => exact absurd hs hn
  case settle => simp only [Host.Outcome.next.injEq] at h; subst h; constructor <;> simp_all
  case opening =>
    simp only [Host.Outcome.next.injEq] at h; subst h
    unfold State.openTransfer
    split
    · constructor <;> simp_all
    · split
      · have := nextByte_resumed { s with pstate := .transferring, idx := 0 } (by simp [hs])
        have hp : ({ s with pstate := .transferring, idx := 0 } : State).nextByte.pstate = .transferring := by
          rcases this.pstate with h | ⟨h, _⟩ | ⟨h, _⟩ | ⟨h, _⟩ <;> simp_all
        have hf : ({ s with pstate := .transferring, idx := 0 } : State).nextByte.fBytes = s.fBytes := by
          rcases this.fBytes with h | h <;> simp_all
        have hr : ({ s with pstate := .transferring, idx := 0 } : State).nextByte.responses = s.responses := by
          rcases this.responses with h | h | h <;> simp_all
        have hl : ({ s with pstate := .transferring, idx := 0 } : State).nextByte.fLength = s.fLength := by
          rcases this.fLength with h | h <;> simp_all
        have hcf : ({ s with pstate := .transferring, idx := 0 } : State).nextByte.configured = s.configured := by
          rcases this.configured with h | h <;> simp_all
        obtain ⟨⟩ := this
        constructor <;> first | assumption | simp_all
      · constructor <;> simp_all
  case watch =>
    simp only [Host.Outcome.next.injEq] at h; subst h
    split
    · constructor <;> simp_all
    · have := failedObservation_resumed s .watch (by simp) (by simp [hs])
      have hp : (s.failedObservation .watch).pstate = s.pstate := by
        rcases this.pstate with h | ⟨h, _⟩ | ⟨h, _⟩ | ⟨h, _⟩ <;> simp_all
      have hf : (s.failedObservation .watch).fBytes = s.fBytes := by rcases this.fBytes with h | h <;> simp_all
      have hr : (s.failedObservation .watch).responses = s.responses := by
        rcases this.responses with h | h | h <;> simp_all
      have hl : (s.failedObservation .watch).fLength = s.fLength := by rcases this.fLength with h | h <;> simp_all
      have hcf : (s.failedObservation .watch).configured = s.configured := by
        rcases this.configured with h | h <;> simp_all
      obtain ⟨⟩ := this
      constructor <;> first | assumption | simp_all
  case validate =>
    unfold seqValidate at h
    obtain ⟨r, hv, h⟩ := (andThen_next _ _ _).1 h
    have hv' : r = .error .malformedRequest ∨ ∃ a b, r = .ok (s.recordCheck a b) := by
      unfold validate at hv
      split at hv
      · cases hv; simp
      · obtain ⟨l, _, hv⟩ := (andThen_next _ _ _).1 hv
        obtain ⟨p, _, hv⟩ := (andThen_next _ _ _).1 hv
        cases hc : crc8 s.cfg.frameCap p (s.fLength - 1) with
        | error e =>
          rw [hc] at hv; cases hv
          have : e = .malformedRequest := by
            unfold crc8 at hc; split at hc
            · cases hc; rfl
            · split at hc <;> cases hc; rfl
          subst this; simp
        | ok c => rw [hc] at hv; cases hv; exact .inr ⟨_, _, rfl⟩
    rcases hv' with rfl | ⟨a, b, rfl⟩
    · simp only [Host.Outcome.next.injEq] at h; subst h
      constructor <;> simp_all [State.retire]
    · simp only [Host.Outcome.next.injEq] at h; subst h
      constructor <;> simp_all
  case respond =>
    simp only [Host.Outcome.next.injEq] at h; subst h
    constructor <;> simp_all [State.endCapture, State.retire]
  all_goals
    simp only [Host.Outcome.next.injEq] at h; subst h
    exact goTo_acted _ _ (by simp) (by simp [hs])

/-- What a host operation can do. -/
structure HostActed (i : Instr) (s t : State) : Prop where
  cfg : t.cfg = s.cfg
  fBytes : t.fBytes = s.fBytes
  receivedCRC : t.receivedCRC = s.receivedCRC
  computedCRC : t.computedCRC = s.computedCRC
  errorFlag : t.errorFlag = s.errorFlag ∨ (i = .clrerr ∧ t.errorFlag = .ok)
  ready : t.ready = s.ready
  configured : t.configured = s.configured
  armTx : t.armTx = s.armTx
  armRx : t.armRx = s.armRx
  hdl : t.hdl = s.hdl
  trace : t.trace = s.trace
  pstate : t.pstate = s.pstate
  idx : t.idx = s.idx
  wcnt : t.wcnt = s.wcnt
  cmds : t.cmds = s.cmds
  descriptor : (t.dCid = s.dCid ∧ t.dHascode = s.dHascode ∧ t.dCode = s.dCode ∧ t.dSettle = s.dSettle ∧
    t.fLength = s.fLength) ∨ ∃ a, i = .capture a
  responses : (t.responses = s.responses ∧ t.seq ≠ .rest) ∨ (t.seq = s.seq ∧ ∃ w, t.responses = s.responses ++ [w])

theorem exec_host_law (i : Instr) (hi : i.isHostOp = true) (s t : State) (h : exec i s = .next t)
    : HostActed i s t := by
  cases i <;> simp only [Instr.isHostOp, Bool.false_eq_true] at hi
  case setup =>
    simp only [exec, execSetup, Host.Outcome.next.injEq] at h; subst h
    split <;> constructor <;> simp
  case capture a =>
    simp only [exec, execCapture, Host.Outcome.next.injEq] at h; subst h
    split
    · split <;> constructor <;> simp
    · constructor <;> simp
  case rdframe a =>
    simp only [exec, execRdframe] at h
    split at h
    · cases h; constructor <;> simp
    · obtain ⟨b, _, h⟩ := (andThen_next _ _ _).1 h
      cases h; constructor <;> simp
  all_goals
    cases h; constructor <;> simp

end Sys2Proof.Machine
end

