-- ==== Sys2Proof/Tests/Slice0.lean ====
section
/-! SUPPORT. Tests: ill-formed instructions refused; words written out bit by bit from spec/30_encoding.md; the vectors
of spec/95_test_vectors.md; one step of each instruction; and for every statement with hypotheses a witness of them. -/

namespace Sys2Proof.Tests

open Sys2Proof.Machine

/-! ### The fixtures of spec/95_test_vectors.md -/

def cmdA : List (Byte × Descriptor) := [(0x00#8, ⟨none, 3, 5⟩), (0x01#8, ⟨some 0x64#8, 5, 9⟩)]

def cfgA : Config where
  frameCap := 16
  cmd := cmdA
  placeholder := 0x00#8
  discipline := .polling
  mode := .txrx
  channel := 0
  waitLimit := none
  finalReadPoll := false
  tickW := 32

def cfgB : Config := { cfgA with mode := .rxOnly, waitLimit := some 2, cmd := [(0x00#8, ⟨none, 3, 5⟩)] }
def cfgC : Config := { cfgB with discipline := .interrupt, waitLimit := none }
def cfgD : Config := { cfgA with discipline := .interrupt }

/-- A configured block of a build, at rest, with the given moves and replies to come. -/
def block (cfg : Config) (ts : List Turn) (rs : List Byte) : State :=
  { State.resetOf cfg with configured := true, turns := ts, replies := rs }

/-- Three frame bytes. -/
def frame3 (a b c : Byte) : List Host.Cell := [(0, a), (1, b), (2, c)]

/-- A transaction of command 0x00 (three bytes, no command byte) at a place of the sequencer. -/
def at0 (cfg : Config) (p : SeqPos) (ts : List Turn) (rs : List Byte) : State :=
  { block cfg ts rs with fLength := 3, dSettle := 5, pstate := pstateAt p }.goTo p

/-- The block with the handler at a place of its run, during the wait, both sources armed. -/
def hdl0 (cfg : Config) (p : HdlPos) (ts : List Turn) (rs : List Byte) : State :=
  { at0 cfg .watch ts rs with armTx := true, armRx := true }.hdlGoTo p

/-- The outcome is a next state with this property. -/
def gives (r : Result State) (p : State → Bool) : Bool :=
  match r with
  | .next t => p t
  | .fault _ => false
  | .refused _ => false

/-- The next state of an outcome that is one. -/
def nextOf (r : Result State) : State :=
  match r with
  | .next t => t
  | .fault _ => State.resetOf cfgA
  | .refused _ => State.resetOf cfgA

/-! ### Well-formedness -/

theorem test_fixtures_wellFormed :
    cfgOk cfgA = true ∧ cfgOk cfgB = true ∧ cfgOk cfgC = true ∧ cfgOk cfgD = true := by decide

theorem test_setWordCount_illFormed :
    Instr.wellFormed cfgA (.tSetWordCount 0x01#8) = false ∧ Instr.wellFormed cfgA (.tSetWordCount 0x11#8) = false ∧
    Instr.wellFormed cfgA (.tSetWordCount 0x02#8) = true ∧ Instr.wellFormed cfgA (.tSetWordCount 0x10#8) = true := by
  decide

theorem test_setFifoTriggerLevel_illFormed :
    Instr.wellFormed cfgD (.tSetFifoTriggerLevel 0x01#8) = false ∧
    Instr.wellFormed cfgD (.tSetFifoTriggerLevel 0x11#8) = false ∧
    Instr.wellFormed cfgD (.tSetFifoTriggerLevel 0x05#8) = true := by decide

theorem test_waitTicks_illFormed :
    Instr.wellFormed cfgA (.dWaitTicks (2 ^ 32)) = false ∧ Instr.wellFormed cfgA (.dWaitTicks (2 ^ 32 - 1)) = true := by
  decide

/-! ### Decoding: words written out from R50, R53, R57, R58, R59 -/

theorem test_decode_setup : decode (.host 0b0001000000000000#16) = .ok .setup := by decide
theorem test_decode_capture : decode (.host 0b0010000000000001#16) = .ok (.capture 0x01#8) := by decide
theorem test_decode_rdframe : decode (.host 0b0011000011111111#16) = .ok (.rdframe 0xFF#8) := by decide
theorem test_decode_rdlen : decode (.host 0b0100000000000000#16) = .ok .rdlen := by decide
theorem test_decode_rdrxcrc : decode (.host 0b0101000000000000#16) = .ok .rdrxcrc := by decide
theorem test_decode_rdccrc : decode (.host 0b0110000000000000#16) = .ok .rdccrc := by decide
theorem test_decode_rderr : decode (.host 0b0111000000000000#16) = .ok .rderr := by decide
theorem test_decode_clrerr : decode (.host 0b1000000000000000#16) = .ok .clrerr := by decide

theorem test_decode_tEnable : decode (.request (.transport 0b0000000000000000#16)) = .ok .tEnable := by decide
theorem test_decode_tDisable : decode (.request (.transport 0b0001000000000000#16)) = .ok .tDisable := by decide
theorem test_decode_tAssertSelect :
    decode (.request (.transport 0b0010000000000000#16)) = .ok .tAssertSelect := by decide
theorem test_decode_tDeassertSelect :
    decode (.request (.transport 0b0011000000000000#16)) = .ok .tDeassertSelect := by decide
theorem test_decode_tSetWordCount :
    decode (.request (.transport 0b0100000000000101#16)) = .ok (.tSetWordCount 0x05#8) := by decide
theorem test_decode_tSetFifoTriggerLevel :
    decode (.request (.transport 0b0101000000000101#16)) = .ok (.tSetFifoTriggerLevel 0x05#8) := by decide
theorem test_decode_tTransmit :
    decode (.request (.transport 0b0110000001100100#16)) = .ok (.tTransmit 0x64#8) := by decide
theorem test_decode_tReceive : decode (.request (.transport 0b0111000000000000#16)) = .ok .tReceive := by decide
theorem test_decode_tTransferComplete :
    decode (.request (.transport 0b1000000000000000#16)) = .ok .tTransferComplete := by decide
theorem test_decode_tInterruptStatus :
    decode (.request (.transport 0b1001000000000000#16)) = .ok .tInterruptStatus := by decide
theorem test_decode_tEnableInterrupt :
    decode (.request (.transport 0b1010000000000000#16)) = .ok (.tEnableInterrupt .txEmpty) ∧
    decode (.request (.transport 0b1010000000000001#16)) = .ok (.tEnableInterrupt .rxFull) := by decide
theorem test_decode_tDisableInterrupt :
    decode (.request (.transport 0b1011000000000000#16)) = .ok (.tDisableInterrupt .txEmpty) ∧
    decode (.request (.transport 0b1011000000000001#16)) = .ok (.tDisableInterrupt .rxFull) := by decide
theorem test_decode_tClearInterrupt :
    decode (.request (.transport 0b1100000000000000#16)) = .ok (.tClearInterrupt .txEmpty) ∧
    decode (.request (.transport 0b1100000000000001#16)) = .ok (.tClearInterrupt .rxFull) := by decide
theorem test_decode_tConfigure :
    decode (.request (.transport 0b1101000000000000#16)) = .ok (.tConfigure .txrx false) ∧
    decode (.request (.transport 0b1101000000000001#16)) = .ok (.tConfigure .rxOnly false) ∧
    decode (.request (.transport 0b1101000000000010#16)) = .ok (.tConfigure .txrx true) ∧
    decode (.request (.transport 0b1101000000000011#16)) = .ok (.tConfigure .rxOnly true) := by decide
theorem test_decode_dWaitTicks : decode (.request (.delay 0b1001)) = .ok (.dWaitTicks 9) := by decide

/-- The illegal words of V-ENC, each with its reason. -/
theorem test_decode_illegal :
    decodeHost 0x0000#16 = .error .reservedOperation ∧ decodeHost 0x9000#16 = .error .reservedOperation ∧
    decodeHost 0xF0FF#16 = .error .reservedOperation ∧ decodeHost 0xFFFF#16 = .error .reservedBitsSet ∧
    decodeHost 0x1001#16 = .error .operandNotZero ∧ decodeHost 0x4001#16 = .error .operandNotZero ∧
    decodeHost 0x8080#16 = .error .operandNotZero ∧ decodeHost 0x2100#16 = .error .reservedBitsSet ∧
    decodeHost 0x3800#16 = .error .reservedBitsSet := by decide

/-- Words the block never presents on the transport port (R57, R58). -/
theorem test_decode_never_presented :
    decodeTransport 0xE000#16 = .error .codeNeverIssued ∧ decodeTransport 0xF000#16 = .error .codeNeverIssued ∧
    decodeTransport 0x0100#16 = .error .padNotZero ∧ decodeTransport 0x7001#16 = .error .argumentNotZero ∧
    decodeTransport 0xA002#16 = .error .noSuchSource ∧ decodeTransport 0xD004#16 = .error .settingsBitsSet := by decide

/-- The host's two plain definitions, on a word of each port. -/
theorem test_decodeTableWord :
    decodeTableWord 16 0x1000 = some .setup ∧ decodeTableWord 16 0x6064 = some (.tTransmit 0x64#8) ∧
    decodeTableWord 16 0xD003 = some (.tConfigure .rxOnly true) ∧ decodeTableWord 32 9 = some (.dWaitTicks 9) ∧
    decodeTableWord 16 0xE000 = none := by decide

theorem test_withFetchWord_host : fetch ((State.resetOf cfgA).withFetchWord 16 0x1000).afterTurn = .command .setup := by
  decide
theorem test_withFetchWord_request :
    fetch ((State.resetOf cfgA).withFetchWord 16 0xA001).afterTurn = .request (.tEnableInterrupt .rxFull) := by decide

/-! ### The CRC (V-TBL, V-CRC, V-VAL) -/

theorem test_tbl_first_row :
    (List.range 16).map (fun i => tbl (BitVec.ofNat 8 i)) =
      [0x00#8, 0x97#8, 0xB9#8, 0x2E#8, 0xE5#8, 0x72#8, 0x5C#8, 0xCB#8, 0x5D#8, 0xCA#8, 0xE4#8, 0x73#8, 0xB8#8, 0x2F#8,
        0x01#8, 0x96#8] := by decide

theorem test_tbl_last_row :
    (List.range 16).map (fun i => tbl (BitVec.ofNat 8 (0xF0 + i))) =
      [0xAA#8, 0x3D#8, 0x13#8, 0x84#8, 0x4F#8, 0xD8#8, 0xF6#8, 0x61#8, 0xF7#8, 0x60#8, 0x4E#8, 0xD9#8, 0x12#8, 0x85#8,
        0xAB#8, 0x3C#8] := by decide

set_option maxRecDepth 16384 in
theorem test_crc8_vectors :
    crc8 16 [0x00#8] 1 = .ok 0x00#8 ∧ crc8 16 [0x01#8, 0x00#8] 2 = .ok 0xD3#8 ∧
    crc8 16 [0x12#8, 0x34#8] 2 = .ok 0x92#8 ∧ crc8 16 [0xFF#8, 0xFF#8] 2 = .ok 0xDD#8 ∧
    crc8 16 [0x12#8, 0x34#8, 0x56#8, 0x78#8] 4 = .ok 0xB3#8 ∧ crc8 16 [0x12#8, 0x34#8, 0x56#8, 0x78#8] 2 = .ok 0x92#8 ∧
    crc8 16 [0xDE#8, 0xAD#8, 0xBE#8, 0xEF#8] 4 = .ok 0xBB#8 := by decide

set_option maxRecDepth 16384 in
theorem test_crc8_ten_ones : crc8 16 (List.replicate 10 0xFF#8) 10 = .ok 0x0F#8 := by decide

theorem test_crc8_refused :
    crc8 16 [0x12#8] 0 = .error .malformedRequest ∧
    crc8 16 (List.replicate 17 0xFF#8) 17 = .error .malformedRequest := by decide

/-- A block whose frame is these bytes, about to validate. -/
def validating (flag : Verdict) (bytes : List Host.Cell) : State :=
  { at0 cfgA .validate [.run] [] with fBytes := bytes, errorFlag := flag }

/-- The diagnostics and the flag after a validation. -/
def checked (s : State) : Byte × Byte × Verdict := (s.receivedCRC, s.computedCRC, s.errorFlag)

set_option maxRecDepth 16384 in
theorem test_validate_ok :
    gives (step (validating .ok (frame3 0x12#8 0x34#8 0x6D#8))) (fun t => checked t == (0x92#8, 0x92#8, .ok)) = true := by
  decide
set_option maxRecDepth 16384 in
theorem test_validate_fail :
    gives (step (validating .ok (frame3 0x12#8 0x34#8 0x00#8))) (fun t => checked t == (0xFF#8, 0x92#8, .fail)) = true := by
  decide
set_option maxRecDepth 16384 in
theorem test_validate_sticky :
    gives (step (validating .fail (frame3 0x12#8 0x34#8 0x6D#8))) (fun t => checked t == (0x92#8, 0x92#8, .fail)) =
      true := by decide
set_option maxRecDepth 16384 in
theorem test_validate_all_ones :
    gives (step (validating .ok (frame3 0xFF#8 0xFF#8 0xFF#8))) (fun t => checked t == (0x00#8, 0xDD#8, .fail)) = true := by
  decide

/-! ### One step of each host operation (V-HOST, P1) -/

/-- A block with one command word at its port. -/
def given (cfg : Config) (w : Word16) : State := { block cfg [.run] [] with cmds := [w] }

theorem test_setup_presents_configure :
    gives (step (given cfgA 0x1000#16)) (fun t => t.sreq == some (.transport 0xD000#16)) = true ∧
    gives (step (given cfgB 0x1000#16)) (fun t => t.sreq == some (.transport 0xD001#16)) = true ∧
    gives (step (given cfgC 0x1000#16)) (fun t => t.sreq == some (.transport 0xD003#16)) = true ∧
    gives (step (given cfgD 0x1000#16)) (fun t => t.sreq == some (.transport 0xD002#16)) = true := by decide

/-- H9 to H11: builds that are not well formed. -/
theorem test_setup_configuration_error :
    gives (step (given { cfgB with cmd := cmdA } 0x1000#16)) (fun t => t.responses == [0x4000#16] && t.sreq == none) = true ∧
    gives (step (given { cfgA with cmd := [(0x00#8, ⟨none, 1, 5⟩)] } 0x1000#16)) (fun t => t.responses == [0x4000#16]) =
      true ∧
    gives (step (given { cfgA with cmd := [(0x00#8, ⟨none, 17, 5⟩)] } 0x1000#16)) (fun t => t.responses == [0x4000#16]) =
      true := by decide

theorem test_capture_loads_descriptor :
    gives (step (given cfgA 0x2001#16)) (fun t =>
      t.sreq == some (.transport 0x4005#16) && t.fLength == 5 && t.dCode == 0x64#8 && t.dHascode && t.dSettle == 9) =
      true := by decide

theorem test_capture_refused :
    gives (step (given cfgA 0x2007#16)) (fun t => t.responses == [0x2000#16] && t.sreq == none) = true ∧
    gives (step { given cfgA 0x2007#16 with configured := false }) (fun t => t.responses == [0x4000#16]) = true := by
  decide

/-- The block after P1, with one command word at its port. -/
def afterP1 (w : Word16) : State :=
  { given cfgA w with
    fBytes := [(0, 0x12#8), (1, 0x34#8), (2, 0x56#8), (3, 0x78#8), (4, 0x4C#8)]
    fLength := 5
    receivedCRC := 0xB3#8
    computedCRC := 0xB3#8 }

theorem test_rdframe :
    gives (step (afterP1 0x3004#16)) (fun t => t.responses == [0x004C#16]) = true ∧
    gives (step (afterP1 0x3005#16)) (fun t => t.responses == [0x2000#16]) = true := by decide
theorem test_rdlen : gives (step (afterP1 0x4000#16)) (fun t => t.responses == [0x0005#16]) = true := by decide
theorem test_rdrxcrc : gives (step (afterP1 0x5000#16)) (fun t => t.responses == [0x00B3#16]) = true := by decide
theorem test_rdccrc :
    gives (step { afterP1 0x6000#16 with receivedCRC := 0xFF#8 }) (fun t => t.responses == [0x00B3#16]) = true := by decide
theorem test_rderr :
    gives (step { afterP1 0x7000#16 with errorFlag := .fail }) (fun t => t.responses == [0x0001#16] && t.errorFlag == .fail) =
      true := by decide
theorem test_clrerr :
    gives (step { afterP1 0x8000#16 with errorFlag := .fail }) (fun t =>
      t.responses == [0x0000#16] && t.errorFlag == .ok && t.receivedCRC == 0xB3#8) = true := by decide
theorem test_illegal_word :
    gives (step { afterP1 0x8080#16 with errorFlag := .fail }) (fun t =>
      t.responses == [0x2000#16] && t.errorFlag == .fail && t.trace == []) = true := by decide

/-! ### One step of each port operation (P1, P4, V-IRQ) -/

theorem test_tSetWordCount :
    gives (step (at0 cfgA .setWordCount [.run] [])) (fun t =>
      t.trace == [called (.tSetWordCount 0x03#8)] && t.sreq == some (.transport 0x0000#16)) = true := by decide
theorem test_tSetFifoTriggerLevel :
    gives (step (at0 cfgC .setTrigger [.run] [])) (fun t =>
      t.trace == [called (.tSetFifoTriggerLevel 0x03#8)] && t.sreq == some (.transport 0x0000#16)) = true := by decide
theorem test_tEnable :
    gives (step (at0 cfgA .enable [.run] [])) (fun t => t.trace == [called .tEnable] && t.pstate == .configured) = true := by
  decide
theorem test_tAssertSelect :
    gives (step (at0 cfgA .assertSelect [.run] [])) (fun t =>
      t.trace == [called .tAssertSelect] && t.sreq == some (.delay 5)) = true := by decide
theorem test_dWaitTicks :
    gives (step (at0 cfgA .waitTicks [.run] [])) (fun t =>
      t.trace == [called (.dWaitTicks 5)] && t.delayBusy && t.pstate == .configured) = true := by decide
theorem test_tTransmit :
    gives (step { at0 cfgA .transmit [.run] [] with dHascode := true, dCode := 0x64#8, sreq := some (.transport 0x6064#16) })
      (fun t => t.trace == [called (.tTransmit 0x64#8)] && t.sreq == some (.transport 0x8000#16)) = true := by decide
theorem test_tTransferComplete :
    gives (step (at0 cfgA .observe [.run] [0xFE#8])) (fun t =>
      t.trace == [asked .tTransferComplete 0xFE#8] && t.sreq == some (.transport 0x8000#16)) = true ∧
    gives (step (at0 cfgA .observe [.run] [0x01#8])) (fun t => t.sreq == some (.transport 0x7000#16)) = true := by decide
theorem test_tReceive :
    gives (step { at0 cfgA .receive [.run] [0x34#8] with fBytes := [(0, 0x12#8)], idx := 1 }) (fun t =>
      t.fBytes == [(0, 0x12#8), (1, 0x34#8)] && t.idx == 2) = true := by decide
theorem test_tDeassertSelect :
    gives (step (at0 cfgA .deassertSelect [.run] [])) (fun t =>
      t.trace == [called .tDeassertSelect] && t.sreq == some (.transport 0x1000#16)) = true := by decide
theorem test_tDisable :
    gives (step (at0 cfgA .disable [.run] [])) (fun t => t.trace == [called .tDisable] && t.pstate == .csDeasserted) =
      true := by decide
theorem test_tConfigure :
    gives (step { at0 cfgA .configure [.run] [0x00#8] with configured := false }) (fun t =>
      t.responses == [0x4000#16] && !t.configured) = true ∧
    gives (step { at0 cfgA .configure [.run] [0x01#8] with configured := false }) (fun t =>
      t.responses == [0x0000#16] && t.configured) = true := by decide
theorem test_tEnableInterrupt :
    gives (step (at0 cfgC .enableTx [.run] [])) (fun t => t.armTx && !t.armRx && t.seq == .enableRx) = true ∧
    gives (step (at0 cfgC .enableRx [.run] [])) (fun t => !t.armTx && t.armRx && t.seq == .watch) = true := by decide
theorem test_tInterruptStatus :
    gives (step (hdl0 cfgC .status [.run] [0x03#8])) (fun t => t.hdl == .txTransmit && t.hDoRx) = true ∧
    gives (step { hdl0 cfgC .status [.run] [0x01#8] with armTx := false }) (fun t =>
      t.hdl == .idle && t.trace == [hAsked .tInterruptStatus 0x01#8]) = true := by decide
theorem test_tDisableInterrupt :
    gives (step (hdl0 cfgC .txDisable [.run] [])) (fun t => !t.armTx && t.armRx && t.hdl == .txClear) = true ∧
    gives (step (at0 cfgC .toDisableRx [.run] [])) (fun t => t.seq == .toDeassertSelect) = true := by decide
theorem test_tClearInterrupt :
    gives (step { hdl0 cfgC .rxClear [.run] [] with armRx := false }) (fun t => t.ready && t.hdl == .idle) = true := by decide

/-! ### Turns of the environment -/

theorem test_delivery_enters_handler :
    gives (step { at0 cfgC .watch [.interrupt] [] with armRx := true }) (fun t =>
      t.hdl == .status && t.hreq == some (.transport 0x9000#16) && t.seq == .watch) = true := by decide
theorem test_delivery_unarmed : gives (step (at0 cfgC .watch [.interrupt] [])) (fun t => t.hdl == .idle) = true := by decide
theorem test_reset_in_transfer :
    gives (step { at0 cfgA .observe [.reset] [] with cmds := [0x1000#16] }) (fun t =>
      t.pstate == .idle && t.fLength == 0 && !t.configured && t.cmds == [] && t.responses == [] && t.trace == []) = true := by
  decide

/-! ### The invariant of a concrete state -/

/-- No cell below `n` is without a value. -/
def filledTo (m : List Host.Cell) (n : Nat) : Bool := (List.range n).all fun a => (Memory.read m a).isSome

theorem filled_of_filledTo (m : List Host.Cell) (n : Nat) (h : filledTo m n = true) : Memory.filled m n := by
  intro a ha
  exact List.all_eq_true.1 h a (List.mem_range.2 ha)

/-- The clauses of the invariant about the registers, in a form that can be evaluated. -/
def checkRegisters (s : State) : Bool :=
  decide (Memory.wf s.fBytes) && s.fBytes.all (fun c => decide (c.1 < s.cfg.frameCap)) &&
    (!s.configured || cfgOk s.cfg) && (s.seq != .configure || cfgOk s.cfg) &&
    (s.fLength == 0 || (cfgOk s.cfg && decide (2 ≤ s.fLength) && decide (s.fLength ≤ s.cfg.frameCap))) &&
    s.pstate == pstateAt s.seq && s.sreq == (seqRequest s s.seq).bind requestOf &&
    s.hreq == (hdlRequest s s.hdl).bind requestOf

/-- The clauses about the sequencer's place. -/
def checkSequencer (s : State) : Bool :=
  (!s.seq.inCapture || (s.configured && decide (2 ≤ s.fLength) && decide (s.dSettle < 2 ^ s.cfg.tickW))) &&
    (!s.seq.polls || s.cfg.discipline == .polling) && (!s.seq.interruptOnly || s.cfg.discipline == .interrupt) &&
    (s.cfg.discipline != .polling || (!s.armTx && !s.armRx && !s.ready && s.hdl == .idle && !s.irqPending)) &&
    (!s.seq.polls || (decide (s.idx < s.fLength) && filledTo s.fBytes s.idx)) &&
    (!s.seq.frameComplete || filledTo s.fBytes s.fLength) &&
    (s.seq != .watch || !s.ready || (filledTo s.fBytes s.fLength && !s.armRx)) &&
    (!(s.seq == .enableTx || s.seq == .enableRx) || !s.ready) && (!s.armRx || s.seq.rxMayBeArmed) &&
    (!s.delayBusy || s.seq == .settle) &&
    (!(s.seq == .observe || s.seq == .watch) || s.cfg.waitLimit.all fun n => decide (s.wcnt < n))

/-- The clauses about the handler's place. -/
def checkHandler (s : State) : Bool :=
  (!s.hdl.drains || s.seq.rxMayBeArmed) && (!s.hdl.transmits || !s.hDoRx || s.armRx) &&
    (s.hdl != .rxReceive || (decide (s.hk < s.fLength) && filledTo s.fBytes s.hk)) &&
    (!(s.hdl == .rxDisable || s.hdl == .rxClear) || filledTo s.fBytes s.fLength) &&
    (!(s.hdl == .rxReceive || s.hdl == .rxDisable) || s.armRx) && (s.hdl != .rxClear || !s.armRx) &&
    (!s.irqPending || s.hdl != .idle)

/-- All clauses of the invariant. -/
def checks (s : State) : Bool := checkRegisters s && checkSequencer s && checkHandler s

theorem inv_of_checks (s : State) (h : checks s = true) : s.Inv := by
  have f := filled_of_filledTo s.fBytes
  simp only [checks, checkRegisters, checkSequencer, checkHandler, Bool.and_eq_true, Bool.or_eq_true, Bool.not_eq_true',
    decide_eq_true_eq, beq_iff_eq, bne_iff_ne, List.all_eq_true] at h
  obtain ⟨⟨a, b⟩, c⟩ := h
  obtain ⟨⟨⟨⟨⟨⟨⟨a1, a2⟩, a3⟩, a4⟩, a5⟩, a6⟩, a7⟩, a8⟩ := a
  obtain ⟨⟨⟨⟨⟨⟨⟨⟨⟨⟨b1, b2⟩, b3⟩, b4⟩, b5⟩, b6⟩, b7⟩, b8⟩, b9⟩, b10⟩, b11⟩ := b
  obtain ⟨⟨⟨⟨⟨⟨c1, c2⟩, c3⟩, c4⟩, c5⟩, c6⟩, c7⟩ := c
  constructor
  case memWf => exact a1
  case memBelow => exact a2
  case waitLeft =>
    intro hq n hn
    rw [hn] at b11
    rcases b11 with hx | hx
    · rcases hq with hq | hq <;> simp [hq] at hx
    · simpa using hx
  case polled => exact fun hq => by rcases b5 with hx | hx; simp [hq] at hx; exact ⟨hx.1, f _ hx.2⟩
  case complete => exact fun hq => by rcases b6 with hx | hx; simp [hq] at hx; exact f _ hx
  case announced =>
    intro hq hr
    rcases b7 with (hx | hx) | hx
    · exact absurd hq hx
    · simp [hr] at hx
    · exact ⟨f _ hx.1, by simpa using hx.2⟩
  case draining => exact fun hq => by rcases c3 with hx | hx; exact absurd hq hx; exact ⟨hx.1, f _ hx.2⟩
  case drained => exact fun hq => by rcases c4 with hx | hx; (rcases hq with hq | hq <;> simp [hq] at hx); exact f _ hx
  all_goals grind

/-! ### Witnesses: states and operands that meet the hypotheses of each statement -/

/-- A command word held by a block at rest. -/
def holding (cfg : Config) (w : Word16) (ts : List Turn) (rs : List Byte) : State :=
  { block cfg ts rs with cmds := [w, 0x8000#16] }

theorem holding_atRest (cfg : Config) (w : Word16) (ts : List Turn) (rs : List Byte) : (holding cfg w ts rs).atRest :=
  ⟨rfl, rfl, rfl, rfl, rfl⟩
theorem holding_turns (cfg : Config) (w : Word16) (ts : List Turn) (rs : List Byte) :
    (holding cfg w ts rs).turns = ts := rfl
theorem at0_standsAt (cfg : Config) (p : SeqPos) (ts : List Turn) (rs : List Byte) : (at0 cfg p ts rs).standsAt p := by
  cases p <;> exact ⟨rfl, rfl, rfl, rfl⟩
theorem at0_turns (cfg : Config) (p : SeqPos) (ts : List Turn) (rs : List Byte) : (at0 cfg p ts rs).turns = ts := rfl
theorem hdl0_turns (cfg : Config) (p : HdlPos) (ts : List Turn) (rs : List Byte) : (hdl0 cfg p ts rs).turns = ts := rfl

theorem test_witness_HostWordsSpellTheTable :
    opField 0x00FF#16 = 0#4 ∧ 9#4 ≤ opField 0x9000#16 ∧ 9#4 ≤ opField 0xFFFF#16 ∧ decodeHost 0x8000#16 = .ok .clrerr := by
  decide

theorem test_witness_TransportWordsSpellTheTable :
    14#4 ≤ opField 0xE000#16 ∧ 14#4 ≤ opField 0xFFFF#16 ∧ ¬ 14#4 ≤ opField 0xD003#16 := by decide

/-- One illegal word for each reason of R55, the first and the last reserved code among them. -/
theorem test_witness_IllegalCommandWords :
    (accepted (decodeHost 0x0000#16) = none ∧ accepted (decodeHost 0x9000#16) = none ∧
      accepted (decodeHost 0xF0FF#16) = none ∧ accepted (decodeHost 0x8100#16) = none ∧
      accepted (decodeHost 0x8001#16) = none) ∧
    ∀ w, (holding cfgA w [.run] []).turn = .run ∧ (holding cfgA w [.run] []).atRest ∧
      (holding cfgA w [.run] []).cmds = w :: [0x8000#16] :=
  ⟨by decide, fun _ => ⟨rfl, ⟨rfl, rfl, rfl, rfl, rfl⟩, rfl⟩⟩

theorem test_witness_StepRunsAcceptedCommand :
    (block cfgA [.present 0x4000#16] []).turn = .present 0x4000#16 ∧
    (holding cfgA 0x2001#16 [.run] []).turn = .run ∧ (holding cfgA 0x2001#16 [.run] []).atRest ∧
    (holding cfgA 0x2001#16 [.run] []).cmds = [0x2001#16, 0x8000#16] ∧
    decodeHost 0x2001#16 = .ok (.capture 0x01#8) := ⟨rfl, rfl, ⟨rfl, rfl, rfl, rfl, rfl⟩, rfl, by decide⟩

theorem test_witness_StepRunsPresentedRequest :
    ((at0 cfgA .observe [.run] []).turn = .run ∧ decodeRequest (.transport 0x8000#16) = .ok .tTransferComplete ∧
      (at0 cfgA .observe [.run] []).hdl = .idle ∧ (at0 cfgA .observe [.run] []).delayBusy = false ∧
      (at0 cfgA .observe [.run] []).sreq = some (.transport 0x8000#16)) ∧
    ((hdl0 cfgC .rxReceive [.run] []).turn = .run ∧ decodeRequest (.transport 0x7000#16) = .ok .tReceive ∧
      (hdl0 cfgC .rxReceive [.run] []).hdl ≠ .idle ∧
      (hdl0 cfgC .rxReceive [.run] []).hreq = some (.transport 0x7000#16)) := by decide

/-- Both branches of R83, each with the turns and the reply its run takes. -/
theorem test_witness_SetupConfiguresTransport :
    (cfgOk { cfgA with frameCap := 1 } = false ∧ cfgOk cfgC = true) ∧
    ((holding { cfgA with frameCap := 1 } 0x1000#16 [.run] []).atRest ∧
      (holding { cfgA with frameCap := 1 } 0x1000#16 [.run] []).cmds = [0x1000#16, 0x8000#16] ∧
      (holding { cfgA with frameCap := 1 } 0x1000#16 [.run] []).turns = [.run]) ∧
    ((holding cfgC 0x1000#16 [.run, .run] [0x01#8]).atRest ∧
      (holding cfgC 0x1000#16 [.run, .run] [0x01#8]).cmds = [0x1000#16, 0x8000#16] ∧
      (holding cfgC 0x1000#16 [.run, .run] [0x01#8]).turns = [.run, .run] ∧
      (holding cfgC 0x1000#16 [.run, .run] [0x01#8]).replies = [0x01#8]) :=
  ⟨by decide, ⟨⟨rfl, rfl, rfl, rfl, rfl⟩, rfl, rfl⟩, ⟨rfl, rfl, rfl, rfl, rfl⟩, rfl, rfl, rfl⟩

theorem test_witness_CaptureChecksThenBegins :
    (State.resetOf cfgA).configured = false ∧
    ((block cfgA [] []).configured = true ∧ cfgA.cmd.lookup 0x02#8 = none) ∧
    ((block cfgA [] []).configured = true ∧ cfgA.cmd.lookup 0x00#8 = some ⟨none, 3, 5⟩ ∧
      cfgA.cmd.lookup 0x01#8 = some ⟨some 0x64#8, 5, 9⟩) := by decide

/-- A block at rest with a frame of three bytes. -/
def framed (cfg : Config) : State := { at0 cfg .rest [.run] [] with fBytes := frame3 0x12#8 0x34#8 0x6D#8 }

/-- The last address of the frame and the first one past it. -/
theorem test_witness_ReadFrameAnswersByte :
    (framed cfgA).fLength ≤ (0x03#8).toNat ∧
    ((0x02#8).toNat < (framed cfgA).fLength ∧ (0x02#8).toNat < (framed cfgA).cfg.frameCap ∧
      Memory.read (framed cfgA).fBytes (0x02#8).toNat = some 0x6D#8) ∧
    (checks (framed cfgA) = true ∧ (framed cfgA).seq = .rest ∧ (0x00#8).toNat < (framed cfgA).fLength) := by decide

theorem test_witness_ReadFrameAnswersByte_inv : (framed cfgA).Inv := inv_of_checks _ (by decide)

theorem test_witness_AccessorsAnswerRegisters :
    ({ framed cfgA with fLength := 255 } : State).fLength ≤ 255 ∧ (framed cfgA).errorFlag = .ok ∧
    ({ framed cfgA with errorFlag := .fail } : State).errorFlag = .fail := by decide

/-- Two buffers that agree below the length and differ at it. -/
theorem test_witness_StaleCellsUnobservable :
    (∀ k, k < (framed cfgA).fLength →
      Memory.read (frame3 0x12#8 0x34#8 0x6D#8 ++ [(3, 0x78#8)]) k = Memory.read (framed cfgA).fBytes k) ∧
    decodeHost 0x3002#16 = .ok (.rdframe 0x02#8) := by decide

theorem test_witness_FrameAddressesRefused :
    (framed cfgA).cfg.frameCap ≤ 16 ∧ 15 < (framed cfgA).cfg.frameCap ∧ Memory.read (framed cfgA).fBytes 15 = none := by
  decide

/-- The eight requests of the statement. -/
theorem test_witness_RequestsWithoutReply :
    Instr.tEnable ∈ [Instr.tEnable, .tDisable, .tAssertSelect, .tDeassertSelect] ∧
    (∃ n, Instr.tSetWordCount 0x02#8 = .tSetWordCount n) ∧ (∃ n, Instr.tSetFifoTriggerLevel 0x02#8 = .tSetFifoTriggerLevel n) ∧
    (∃ b, Instr.tTransmit 0xFF#8 = .tTransmit b) ∧ (∃ src, Instr.tClearInterrupt .rxFull = .tClearInterrupt src) :=
  ⟨by decide, ⟨_, rfl⟩, ⟨_, rfl⟩, ⟨_, rfl⟩, _, rfl⟩

theorem test_witness_RequestsWithReply :
    Instr.tReceive ∈ [Instr.tReceive, .tTransferComplete, .tInterruptStatus] ∧
    (∃ m f, Instr.tConfigure .rxOnly true = .tConfigure m f) ∧
    (block cfgA [] [0xA5#8]).replies = 0xA5#8 :: [] ∧ (block cfgA [] []).replies = [] :=
  ⟨by decide, ⟨_, _, rfl⟩, rfl, rfl⟩

theorem test_witness_EnableAndDisableWriteArmBit :
    Context.calling = (if (at0 cfgC .enableTx [] []).hdl = .idle then Context.calling else .interrupt) ∧
    Context.interrupt = (if (hdl0 cfgC .txDisable [] []).hdl = .idle then Context.calling else .interrupt) := by decide

theorem test_witness_DelayHoldsSequencer :
    ({ at0 cfgA .settle [.run] [] with delayBusy := true } : State).hdl = .idle ∧
    ({ at0 cfgA .settle [.run] [] with delayBusy := true } : State).delayBusy = true ∧
    ({ at0 cfgA .settle [.run] [] with delayBusy := true } : State).turn = .run ∧
    (at0 cfgA .settle [.delayDone] []).turn = .delayDone := by decide

theorem test_witness_ArmBitsMirrorHistory :
    (at0 cfgC .enableTx [.run] []).turn ≠ .reset ∧
    step (at0 cfgC .enableTx [.run] []) = .next (nextOf (step (at0 cfgC .enableTx [.run] []))) ∧
    (at0 cfgC .enableTx [.run] []).armTx = armedBy .txEmpty (at0 cfgC .enableTx [.run] []).trace ∧
    (at0 cfgC .enableTx [.run] []).armRx = armedBy .rxFull (at0 cfgC .enableTx [.run] []).trace :=
  ⟨by decide, rfl, rfl, rfl⟩

theorem test_witness_TransitionOne :
    ((holding cfgA 0x2001#16 (runs 3 ++ [Turn.reset]) []).atRest ∧
      (holding cfgA 0x2001#16 (runs 3 ++ [Turn.reset]) []).cmds = 0x2001#16 :: [0x8000#16] ∧
      decodeHost 0x2001#16 = .ok (.capture 0x01#8) ∧ (holding cfgA 0x2001#16 (runs 3 ++ [Turn.reset]) []).configured = true ∧
      cfgA.cmd.lookup 0x01#8 = some ⟨some 0x64#8, 5, 9⟩ ∧ cfgA.discipline = .polling ∧
      (holding cfgA 0x2001#16 (runs 3 ++ [Turn.reset]) []).turns = runs 3 ++ [Turn.reset]) ∧
    ((holding cfgD 0x2000#16 (runs 4) []).atRest ∧ cfgD.cmd.lookup 0x00#8 = some ⟨none, 3, 5⟩ ∧
      cfgD.discipline = .interrupt ∧ (holding cfgD 0x2000#16 (runs 4) []).turns = runs 4 ++ []) :=
  ⟨⟨holding_atRest _ _ _ _, rfl, by decide, rfl, by decide, rfl, holding_turns _ _ _ _⟩, holding_atRest _ _ _ _,
    by decide, rfl, holding_turns _ _ _ _⟩

/-- A delay answered at once, and one that takes two turns. -/
theorem test_witness_TransitionTwo :
    (at0 cfgA .assertSelect (runs 2 ++ runs 0 ++ [Turn.delayDone, .run] ++ ([] : List Turn)) []).standsAt .assertSelect ∧
    (at0 cfgA .assertSelect (runs 2 ++ runs 2 ++ [Turn.delayDone, .run] ++ [Turn.run]) []).turns =
      runs 2 ++ runs 2 ++ [Turn.delayDone, .run] ++ [Turn.run] := ⟨at0_standsAt _ _ _ _, at0_turns _ _ _ _⟩

theorem test_witness_TransferOpens :
    ∀ cfg ∈ [cfgA, cfgB, cfgC], (at0 cfg .opening [.run] []).turn = .run ∧
      (at0 cfg .opening [.run] []).standsAt .opening ∧ 0 < (at0 cfg .opening [.run] []).fLength :=
  fun _ _ => ⟨rfl, ⟨rfl, rfl, rfl, rfl⟩, Nat.succ_pos 2⟩

theorem test_witness_TransferOpens_builds :
    (cfgA.discipline = .polling ∧ cfgA.mode = .txrx) ∧ (cfgB.discipline = .polling ∧ cfgB.mode = .rxOnly) ∧
    cfgC.discipline = .interrupt := by decide

theorem test_witness_ArmingClearsReadyFirst :
    (at0 cfgC .opening (runs 3) []).standsAt .opening ∧ cfgC.discipline = .interrupt ∧
    (at0 cfgC .opening (runs 3) []).turns = runs 3 ++ [] ∧
    (at0 cfgC .opening (runs 2 ++ Turn.interrupt :: [.run]) []).turns = runs 2 ++ Turn.interrupt :: [.run] :=
  ⟨at0_standsAt _ _ _ _, rfl, at0_turns _ _ _ _, at0_turns _ _ _ _⟩

/-- A word whose first status read says "not complete". -/
def word1 : WordReplies := ⟨[0xFE#8], 0x01#8, 0x34#8⟩

theorem test_word1_valid : word1.valid none ∧ word1.valid (some 2) :=
  ⟨⟨by decide, by decide, by simp⟩, by decide, by decide, by simp [word1]⟩

/-- The first byte of the frame (with the command byte) and its last. -/
theorem test_witness_TxrxExchange :
    ∀ k ∈ [0, 2], ({ at0 cfgA .rest (runs 4) word1.replies with idx := k }.goTo .transmit).standsAt .transmit ∧
      cfgA.mode = .txrx ∧ k < ({ at0 cfgA .rest (runs 4) word1.replies with idx := k }.goTo .transmit).fLength ∧
      3 ≤ cfgA.frameCap ∧ (at0 cfgA .rest (runs 4) word1.replies).turns = runs (word1.failed.length + 3) ++ [] ∧
      (at0 cfgA .rest (runs 4) word1.replies).replies = word1.replies ++ [] := by
  intro k hk
  simp only [List.mem_cons, List.not_mem_nil, or_false] at hk
  rcases hk with rfl | rfl <;> exact ⟨⟨rfl, rfl, rfl, rfl⟩, rfl, by decide, by decide, rfl, rfl⟩

/-- The fill; a byte of the loop, the first and the last but one; the final read. -/
theorem test_witness_ReceiveOnlyBytes :
    cfgB.mode = .rxOnly ∧ (at0 cfgB .transmit [.run] []).fLength ≤ cfgB.frameCap ∧
    ((at0 cfgB .transmit [.run] []).standsAt .transmit ∧ (at0 cfgB .transmit [.run] []).idx = 0 ∧
      2 ≤ (at0 cfgB .transmit [.run] []).fLength ∧ (at0 cfgB .transmit [.run] []).turns = .run :: []) ∧
    (∀ k ∈ [0, 1, 2], ({ at0 cfgB .observe (runs 3) word1.replies with idx := k } : State).standsAt .observe ∧
      k < ({ at0 cfgB .observe (runs 3) word1.replies with idx := k } : State).fLength ∧
      ({ at0 cfgB .observe (runs 3) word1.replies with idx := k } : State).wcnt = 0 ∧
      ({ at0 cfgB .observe (runs 3) word1.replies with idx := k } : State).turns = runs (word1.failed.length + 2) ++ [] ∧
      ({ at0 cfgB .observe (runs 3) word1.replies with idx := k } : State).replies = word1.replies ++ []) ∧
    (({ at0 cfgB .receive [.run] [0x6D#8] with idx := 2 } : State).standsAt .receive ∧
      ({ at0 cfgB .receive [.run] [0x6D#8] with idx := 2 } : State).idx + 1 = 3 ∧
      ({ at0 cfgB .receive [.run] [0x6D#8] with idx := 2 } : State).turns = .run :: [] ∧
      ({ at0 cfgB .receive [.run] [0x6D#8] with idx := 2 } : State).replies = 0x6D#8 :: []) := by
  refine ⟨rfl, by decide, ⟨⟨rfl, rfl, rfl, rfl⟩, rfl, by decide, rfl⟩, ?_, ⟨rfl, rfl, rfl, rfl⟩, rfl, rfl, rfl⟩
  intro k hk
  refine ⟨⟨rfl, rfl, rfl, rfl⟩, ?_, rfl, rfl, rfl⟩
  simp only [List.mem_cons, List.not_mem_nil, or_false] at hk
  rcases hk with rfl | rfl | rfl <;> decide

/-- One failed read below a limit of two, and two without a limit. -/
theorem test_witness_FailedReadsAreRepeated :
    ((at0 cfgB .observe (runs 1) [0xFE#8]).standsAt .observe ∧ (∀ b ∈ [0xFE#8], b.getLsbD 0 = false) ∧
      (at0 cfgB .observe (runs 1) [0xFE#8]).turns = runs [0xFE#8].length ++ [] ∧
      (at0 cfgB .observe (runs 1) [0xFE#8]).replies = [0xFE#8] ++ [] ∧
      ∀ n, cfgB.waitLimit = some n → (at0 cfgB .observe (runs 1) [0xFE#8]).wcnt + [0xFE#8].length < n) ∧
    ((at0 cfgA .observe (runs 2) [0x00#8, 0x02#8]).standsAt .observe ∧
      (∀ b ∈ [0x00#8, 0x02#8], b.getLsbD 0 = false) ∧
      (at0 cfgA .observe (runs 2) [0x00#8, 0x02#8]).turns = runs [0x00#8, 0x02#8].length ++ [] ∧
      ∀ n, cfgA.waitLimit = some n → (at0 cfgA .observe (runs 2) [0x00#8, 0x02#8]).wcnt + 2 < n) := by
  refine ⟨⟨⟨rfl, rfl, rfl, rfl⟩, by decide, rfl, rfl, ?_⟩, ⟨rfl, rfl, rfl, rfl⟩, by decide, rfl, ?_⟩
  · intro n hn; cases hn; decide
  · intro n hn; cases hn

/-- The interrupt wait: with `ready` set and the frame drained; without a limit; one observation before a limit. -/
def watching (limit : Option Nat) (r : Bool) : State :=
  { at0 { cfgC with waitLimit := limit } .watch [.run] [] with
    fBytes := frame3 0x3F#8 0xFC#8 0x88#8
    ready := r }

theorem test_watching_inv :
    (watching none true).Inv ∧ (watching none false).Inv ∧ (watching (some 2) false).Inv :=
  ⟨inv_of_checks _ (by decide), inv_of_checks _ (by decide), inv_of_checks _ (by decide)⟩

theorem test_witness_ReadyEndsInterruptWait :
    (∀ s ∈ [watching none true, watching none false, watching (some 2) false],
      s.turn = .run ∧ s.hdl = .idle ∧ s.seq = .watch) ∧
    (watching none true).ready = true ∧ ((watching none false).ready = false ∧ cfgC.waitLimit = none) ∧
    ((watching (some 2) false).ready = false ∧ (watching (some 2) false).cfg.waitLimit = some 2 ∧
      (watching (some 2) false).wcnt + 1 < 2) := by decide

theorem test_witness_TimeoutSequence :
    (cfgB.waitLimit = some 2 ∧ cfgB.discipline = .polling ∧ (0xFE#8).getLsbD 0 = false ∧
      ({ at0 cfgB .observe (runs 3) [0xFE#8] with wcnt := 1 } : State).wcnt + 1 = 2 ∧
      ({ at0 cfgB .observe (runs 3) [0xFE#8] with wcnt := 1 } : State).standsAt .observe ∧
      ({ at0 cfgB .observe (runs 3) [0xFE#8] with wcnt := 1 } : State).turns = runs 3 ++ [] ∧
      ({ at0 cfgB .observe (runs 3) [0xFE#8] with wcnt := 1 } : State).replies = 0xFE#8 :: []) ∧
    ((watching (some 1) false).cfg.waitLimit = some 1 ∧ (watching (some 1) false).wcnt + 1 = 1 ∧
      (watching (some 1) false).standsAt .watch ∧ (watching (some 1) false).cfg.discipline = .interrupt ∧
      (watching (some 1) false).ready = false ∧ (watching (some 1) false).turn = .run) ∧
    ((at0 cfgC .toDisableTx (runs 4) []).standsAt .toDisableTx ∧
      (at0 cfgC .toDisableTx (runs 4) []).turns = runs 4 ++ []) :=
  ⟨⟨rfl, rfl, by decide, rfl, ⟨rfl, rfl, rfl, rfl⟩, rfl, rfl⟩, ⟨rfl, rfl, ⟨rfl, rfl, rfl, rfl⟩, rfl, rfl, rfl⟩,
    ⟨rfl, rfl, rfl, rfl⟩, rfl⟩

theorem test_witness_TransitionFour :
    (at0 cfgA .deassertSelect (runs 2) []).standsAt .deassertSelect ∧
    (at0 cfgA .deassertSelect (runs 2) []).turns = runs 2 ++ [] := ⟨⟨rfl, rfl, rfl, rfl⟩, rfl⟩

theorem frame3_holds (a b c : Byte) : Memory.holds (frame3 a b c) (frame3 a b c) ([a, b] ++ [c]) := by
  intro k
  match k with
  | 0 => rfl
  | 1 => rfl
  | 2 => rfl
  | n + 3 => simp

/-- A frame that checks, to be validated in one step or two; the shortest payload is one byte. -/
theorem test_witness_TransitionFive :
    (validating .ok (frame3 0x12#8 0x34#8 0x6D#8)).standsAt .validate ∧ [0x12#8, 0x34#8] ≠ [] ∧
    (validating .ok (frame3 0x12#8 0x34#8 0x6D#8)).fLength = [0x12#8, 0x34#8].length + 1 ∧
    (validating .ok (frame3 0x12#8 0x34#8 0x6D#8)).fLength ≤ cfgA.frameCap ∧
    Memory.holds (validating .ok (frame3 0x12#8 0x34#8 0x6D#8)).fBytes
      (validating .ok (frame3 0x12#8 0x34#8 0x6D#8)).fBytes ([0x12#8, 0x34#8] ++ [0x6D#8]) ∧
    (validating .ok (frame3 0x12#8 0x34#8 0x6D#8)).turns = .run :: [] ∧
    ({ validating .ok (frame3 0x12#8 0x34#8 0x6D#8) with turns := runs 2 } : State).turns = runs 2 ++ [] :=
  ⟨⟨rfl, rfl, rfl, rfl⟩, by decide, rfl, by decide, frame3_holds _ _ _, rfl, rfl⟩

/-- Three words of a transfer; the second has a failed status read. -/
def wordsX : List WordReplies := [⟨[], 0x01#8, 0x12#8⟩, word1, ⟨[], 0x03#8, 0x6D#8⟩]

theorem wordsX_valid (limit : Option Nat) (h : limit = none ∨ limit = some 2) : ∀ x ∈ wordsX, x.valid limit := by
  intro x hx
  simp only [wordsX, List.mem_cons, List.not_mem_nil, or_false] at hx
  rcases h with rfl | rfl <;> rcases hx with rfl | rfl | rfl <;>
    exact ⟨by decide, by decide, by intro n hn; cases hn <;> decide⟩

/-- The block about to accept `CAPTURE 0x00`, with a whole transaction's turns and replies to come. -/
def about (cfg : Config) (ts : List Turn) (rs : List Byte) : State :=
  { block cfg ts rs with cmds := [0x2000#16] }

theorem test_about_inv : (about cfgA [] []).Inv ∧ (about cfgB [] []).Inv ∧ (about cfgC [] []).Inv :=
  ⟨inv_of_checks _ (by decide), inv_of_checks _ (by decide), inv_of_checks _ (by decide)⟩

theorem test_witness_CaptureRunsTxrx :
    ∃ s : State, s.Inv ∧ s.atRest ∧ s.cmds = (0x2000#16 ||| (0x00#8).setWidth 16) :: [] ∧ s.configured = true ∧
      s.cfg.cmd.lookup 0x00#8 = some ⟨none, 3, 5⟩ ∧ s.cfg.discipline = .polling ∧ s.cfg.mode = .txrx ∧
      wordsX.length = 3 ∧ (∀ x ∈ wordsX, x.valid s.cfg.waitLimit) ∧
      s.turns = runs 5 ++ .delayDone :: runs ((wordsX.map fun x => x.failed.length + 3).sum + 6) ++ [] ∧
      s.replies = wordsX.flatMap WordReplies.replies ++ [] :=
  ⟨about cfgA (runs 5 ++ .delayDone :: runs ((wordsX.map fun x => x.failed.length + 3).sum + 6) ++ [])
      (wordsX.flatMap WordReplies.replies ++ []),
    inv_of_checks _ (by decide), ⟨rfl, rfl, rfl, rfl, rfl⟩, by decide, rfl, by decide, rfl, rfl, rfl,
    wordsX_valid _ (.inl rfl), rfl, rfl⟩

/-- Both values of FINAL_READ_POLL. -/
theorem test_witness_CaptureRunsRxOnly (poll : Bool) :
    ∃ s : State, s.Inv ∧ s.atRest ∧ s.cmds = (0x2000#16 ||| (0x00#8).setWidth 16) :: [] ∧ s.configured = true ∧
      s.cfg.cmd.lookup 0x00#8 = some ⟨none, 3, 5⟩ ∧ s.cfg.discipline = .polling ∧ s.cfg.mode = .rxOnly ∧
      s.cfg.finalReadPoll = poll ∧ [word1, word1].length + 1 = 3 ∧
      (∀ x ∈ [word1, word1] ++ [word1], x.valid s.cfg.waitLimit) ∧
      s.turns = runs 5 ++ .delayDone :: runs (([word1, word1].map fun x => x.failed.length + 2).sum +
        (if poll then word1.failed.length + 1 else 0) + 8) ++ [] ∧
      s.replies = [word1, word1].flatMap WordReplies.replies ++
        (if poll then word1.failed ++ [word1.done] else []) ++ word1.byte :: [] := by
  refine ⟨about { cfgB with finalReadPoll := poll }
    (runs 5 ++ .delayDone :: runs (([word1, word1].map fun x => x.failed.length + 2).sum +
      (if poll then word1.failed.length + 1 else 0) + 8) ++ [])
    ([word1, word1].flatMap WordReplies.replies ++ (if poll then word1.failed ++ [word1.done] else []) ++
      word1.byte :: []), inv_of_checks _ ?_, ⟨rfl, rfl, rfl, rfl, rfl⟩, rfl, rfl, rfl, rfl, rfl, rfl, rfl, ?_, rfl,
    rfl⟩
  · cases poll <;> decide
  · intro x hx
    simp only [List.cons_append, List.nil_append, List.mem_cons, List.not_mem_nil, or_false, or_self] at hx
    subst hx
    exact test_word1_valid.2

theorem test_witness_CaptureRunsInterrupt :
    ∃ s : State, s.Inv ∧ s.atRest ∧ s.cmds = (0x2000#16 ||| (0x00#8).setWidth 16) :: [] ∧ s.configured = true ∧
      s.cfg.cmd.lookup 0x00#8 = some ⟨none, 3, 5⟩ ∧ s.cfg.discipline = .interrupt ∧
      [0x3F#8, 0xFC#8, 0x88#8].length = 3 ∧ (∀ n, s.cfg.waitLimit = some n → 1 + 1 < n) ∧
      (0x01#8).getLsbD 0 = true ∧ (0x01#8).getLsbD 1 = false ∧ (0x03#8).getLsbD 1 = true ∧
      s.turns = runs 6 ++ .delayDone :: runs (1 + 4) ++ .interrupt :: runs (1 + 4) ++
        .interrupt :: runs ([0x3F#8, 0xFC#8, 0x88#8].length + 8) ++ [] ∧
      s.replies = 0x01#8 :: 0x03#8 :: [0x3F#8, 0xFC#8, 0x88#8] ++ [] :=
  ⟨about { cfgC with waitLimit := some 3 }
      (runs 6 ++ .delayDone :: runs (1 + 4) ++ .interrupt :: runs (1 + 4) ++
        .interrupt :: runs ([0x3F#8, 0xFC#8, 0x88#8].length + 8) ++ [])
      (0x01#8 :: 0x03#8 :: [0x3F#8, 0xFC#8, 0x88#8] ++ []),
    inv_of_checks _ (by decide), ⟨rfl, rfl, rfl, rfl, rfl⟩, by decide, rfl, by decide, rfl, rfl,
    by intro n hn; cases hn; decide, by decide, by decide, by decide, rfl, rfl⟩

theorem test_witness_TableIsLinearBijection : tbl 0x12#8 = tbl (0x02#8 ^^^ 0x10#8) ∧ (0x02#8 : Byte) ≠ 0x10#8 := by decide

theorem test_witness_CrcFollowsAlgorithm :
    [0x34#8].length + 1 ≤ 2 ∧ (0 = 0 ∨ 16 < 0) ∧ (17 = 0 ∨ 16 < 17) := by decide

theorem test_witness_CrcProperties :
    [0x12#8, 0x34#8, 0x56#8].take 2 = [0x12#8, 0x34#8, 0xFF#8].take 2 ∧ [0x12#8] ≠ [] ∧ [0x12#8].length ≤ 1 ∧
    [0x12#8, 0x34#8].length = [0xAB#8, 0xCD#8].length := by decide

/-- A length of one, one over the capacity, and a frame. -/
theorem test_witness_ValidateWritesDiagnostics :
    (1 < 2 ∨ (framed cfgA).cfg.frameCap < 1) ∧ (17 < 2 ∨ (framed cfgA).cfg.frameCap < 17) ∧
    ([0x12#8, 0x34#8] ≠ [] ∧ (framed cfgA).fLength = [0x12#8, 0x34#8].length + 1 ∧
      (framed cfgA).fLength ≤ (framed cfgA).cfg.frameCap ∧
      Memory.holds (framed cfgA).fBytes (framed cfgA).fBytes ([0x12#8, 0x34#8] ++ [0x6D#8])) :=
  ⟨by decide, by decide, by decide, rfl, by decide, frame3_holds _ _ _⟩

/-! #### The interrupt -/

/-- The wait with chosen arm bits. -/
def armed (tx rx : Bool) (ts : List Turn) (rs : List Byte) : State :=
  { at0 cfgC .watch ts rs with armTx := tx, armRx := rx }

theorem test_witness_DeliveryEntersHandler :
    ((armed false true [.interrupt] []).turn = .interrupt ∧ (armed false true [.interrupt] []).cfg.discipline = .interrupt ∧
      (armed false true [.interrupt] []).armRx = true ∧ (armed false true [.interrupt] []).hdl = .idle) ∧
    ((hdl0 cfgC .rxReceive [.interrupt] []).turn = .interrupt ∧ (hdl0 cfgC .rxReceive [.interrupt] []).armRx = true ∧
      (hdl0 cfgC .rxReceive [.interrupt] []).hdl ≠ .idle) ∧
    ((armed false false [.interrupt] []).turn = .interrupt ∧
      ¬ ((armed false false [.interrupt] []).cfg.discipline = .interrupt ∧
        ((armed false false [.interrupt] []).armTx = true ∨ (armed false false [.interrupt] []).armRx = true))) := by decide

theorem test_witness_StatusDecidesService :
    ((hdl0 cfgC .status [.run] [0x03#8]).turn = .run ∧ (hdl0 cfgC .status [.run] [0x03#8]).inHandler .status ∧
      (hdl0 cfgC .status [.run] [0x03#8]).replies = 0x03#8 :: [] ∧ (0x03#8).getLsbD 0 = true ∧
      (hdl0 cfgC .status [.run] [0x03#8]).armTx = true) ∧
    (¬ ((0x02#8).getLsbD 0 = true ∧ (hdl0 cfgC .status [.run] [0x02#8]).armTx = true) ∧ (0x02#8).getLsbD 1 = true ∧
      (hdl0 cfgC .status [.run] [0x02#8]).armRx = true ∧ 0 < (hdl0 cfgC .status [.run] [0x02#8]).fLength) :=
  ⟨⟨rfl, ⟨by decide, rfl, rfl⟩, rfl, by decide, rfl⟩, by decide⟩

/-- P4's run that services nothing: TX_EMPTY reported, no longer armed. -/
theorem test_witness_NothingServiced :
    (armed false true [.interrupt, .run] [0x01#8]).hdl = .idle ∧ (armed false true [.interrupt, .run] [0x01#8]).hreq = none ∧
    (armed false true [.interrupt, .run] [0x01#8]).irqPending = false ∧ cfgC.discipline = .interrupt ∧
    (armed false true [.interrupt, .run] [0x01#8]).armRx = true ∧
    ¬ ((0x01#8).getLsbD 0 = true ∧ (armed false true [.interrupt, .run] [0x01#8]).armTx = true) ∧
    ¬ ((0x01#8).getLsbD 1 = true ∧ (armed false true [.interrupt, .run] [0x01#8]).armRx = true) ∧
    (armed false true [.interrupt, .run] [0x01#8]).turns = .interrupt :: .run :: [] ∧
    (armed false true [.interrupt, .run] [0x01#8]).replies = 0x01#8 :: [] := by decide

theorem test_witness_TransmitServiceRuns :
    (∀ rx : Bool, ({ hdl0 cfgD .txTransmit (runs 3) [] with hDoRx := rx } : State).inHandler .txTransmit ∧
      ({ hdl0 cfgD .txTransmit (runs 3) [] with hDoRx := rx } : State).turns = runs 3 ++ []) ∧
    (hdl0 cfgD .txTransmit (runs 3) []).irqPending = false ∧ 0 < (hdl0 cfgD .txTransmit (runs 3) []).fLength :=
  ⟨fun _ => ⟨⟨by decide, rfl, rfl⟩, rfl⟩, rfl, by decide⟩

theorem test_witness_DrainServiceRuns :
    (hdl0 cfgC .rxReceive (runs 5) [0x3F#8, 0xFC#8, 0x88#8]).inHandler .rxReceive ∧
    (hdl0 cfgC .rxReceive (runs 5) [0x3F#8, 0xFC#8, 0x88#8]).hk = 0 ∧ [0x3F#8, 0xFC#8, 0x88#8] ≠ [] ∧
    [0x3F#8, 0xFC#8, 0x88#8].length = (hdl0 cfgC .rxReceive (runs 5) [0x3F#8, 0xFC#8, 0x88#8]).fLength ∧
    (hdl0 cfgC .rxReceive (runs 5) [0x3F#8, 0xFC#8, 0x88#8]).fLength ≤ cfgC.frameCap ∧
    (hdl0 cfgC .rxReceive (runs 5) [0x3F#8, 0xFC#8, 0x88#8]).irqPending = false ∧
    (hdl0 cfgC .rxReceive (runs 5) [0x3F#8, 0xFC#8, 0x88#8]).turns = runs ([0x3F#8, 0xFC#8, 0x88#8].length + 2) ++ [] ∧
    (hdl0 cfgC .rxReceive (runs 5) [0x3F#8, 0xFC#8, 0x88#8]).replies = [0x3F#8, 0xFC#8, 0x88#8] ++ [] :=
  ⟨⟨by decide, rfl, rfl⟩, rfl, by decide, rfl, by decide, rfl, rfl, rfl⟩

/-- A state at the end of a handler run, with a delivery remembered or not, armed or not. -/
def ending (p : HdlPos) (pending tx rx : Bool) (rs : List Byte) : State :=
  { hdl0 cfgC p [.run] rs with irqPending := pending, armTx := tx, armRx := rx }

/-- The three returns; the two clauses exclude each other, and every state of `ending` falls under one of them. -/
theorem test_witness_ReturnStartsRememberedRun :
    cfgC.discipline = .interrupt ∧
    (∀ pending tx rx, (ending .rxClear pending tx rx []).turn = .run ∧
      (ending .rxClear pending tx rx []).inHandler .rxClear ∧ (ending .txClear pending tx rx []).inHandler .txClear ∧
      (ending .txClear pending tx rx []).hDoRx = false ∧ (ending .status pending tx rx [0xFC#8]).inHandler .status ∧
      (ending .status pending tx rx [0xFC#8]).replies = 0xFC#8 :: []) ∧
    ¬ ((0xFC#8).getLsbD 0 = true ∧ (ending .status true true true [0xFC#8]).armTx = true) ∧
    ¬ ((0xFC#8).getLsbD 1 = true ∧ (ending .status true true true [0xFC#8]).armRx = true) :=
  ⟨rfl, fun _ _ _ => ⟨rfl, ⟨by decide, rfl, rfl⟩, ⟨by decide, rfl, rfl⟩, rfl, ⟨by decide, rfl, rfl⟩, rfl⟩,
    by decide, by decide⟩

/-- R164: after a run that services TX_EMPTY alone, and after one that services nothing, a remembered delivery starts a
new run. -/
theorem test_remembered_delivery :
    gives (step (ending .txClear true false true [])) (fun t => t.hdl == .status && !t.irqPending) = true ∧
    gives (step (ending .status true false true [0x01#8])) (fun t => t.hdl == .status && !t.irqPending) = true ∧
    gives (step (ending .txClear true false false [])) (fun t => t.hdl == .idle && !t.irqPending) = true := by decide

theorem test_witness_HandlerTouchesOnlyItsOwn :
    ∀ p ∈ [HdlPos.status, .txTransmit, .rxReceive, .rxClear],
      (hdl0 cfgC p [.run] [0x03#8]).hdl ≠ .idle ∧
      (hdl0 cfgC p [.run] [0x03#8]).hreq = (hdlRequest (hdl0 cfgC p [.run] [0x03#8]) p).bind requestOf ∧
      (hdl0 cfgC p [.run] [0x03#8]).turn = .run ∧
      gives (step (hdl0 cfgC p [.run] [0x03#8])) (fun _ => true) = true := by decide

/-! #### The whole machine -/

/-- The wait, SETUP waiting for its reply, and every place of transition 1, at the three kinds of turn. -/
theorem test_witness_HeldWordsTouchNothing :
    ((at0 cfgC .watch [.run] []).pstate ≠ .idle ∧ (at0 cfgC .watch [.run] []).turn = .run ∧
      (at0 cfgC .watch [.interrupt] []).turn = .interrupt ∧ (at0 cfgA .settle [.delayDone] []).turn = .delayDone) ∧
    ∀ p ∈ [SeqPos.configure, .setWordCount, .setTrigger, .enable],
      (at0 cfgC p [.run] []).pstate = .idle ∧ (at0 cfgC p [.run] []).seq ≠ .rest ∧
        (at0 cfgC p [.run] []).turn = .run := by decide

/-- R80: a word held while transition 1 is in flight is not accepted. -/
theorem test_held_in_transition_one :
    gives (step { at0 cfgA .setWordCount [.run] [] with cmds := [0x4000#16] })
      (fun t => t.cmds == [0x4000#16] && t.responses == []) = true := by decide

/-- A step that is no reset, from a state with the invariant: the first step of a CAPTURE, one in the middle of a polling
transfer, the last one, the last one of a timeout, one of the handler's drain. -/
def steps : List State :=
  [about cfgA [.run] [],
    { at0 cfgA .receive [.run] [0x34#8] with fBytes := [(0, 0x12#8)], idx := 1 },
    { at0 cfgA .respond [.run] [] with fBytes := frame3 0x12#8 0x34#8 0x6D#8 },
    at0 cfgC .toDisable [.run] [],
    hdl0 cfgC .rxReceive [.run] [0x3F#8]]

theorem test_steps_checks : ∀ s ∈ steps, checks s = true ∧ s.turn ≠ .reset ∧ gives (step s) (fun _ => true) = true := by decide

theorem test_witness_inv_step : ∀ s ∈ steps, s.Inv := fun s h => inv_of_checks s (test_steps_checks s h).1

/-- `OneResponsePerCommand`, `StepKeepsInvariant`, `StepAnswersNext`: the states `steps` meet their hypotheses; one accepts
a command word, two deliver a response. -/
theorem test_witness_OneResponsePerCommand :
    steps.map acceptsCommand = [true, false, false, false, false] ∧
    steps.map (fun s => (nextOf (step s)).responses) = [[], [], [0x0000#16], [0x3000#16], []] := by decide

/-- `ProtocolGraph`: an edge to IDLE from VALIDATED, one from TRANSFERRING. -/
theorem test_witness_ProtocolGraph :
    steps.map (fun s => (s.pstate, (nextOf (step s)).pstate)) =
      [(.idle, .idle), (.transferring, .transferring), (.validated, .idle), (.transferring, .idle),
        (.transferring, .transferring)] := by decide

/-- The flag cleared by CLRERR and by reset, and set by a failed check. -/
theorem test_witness_StickyFlagWriters :
    (∀ s ∈ [{ given cfgA 0x8000#16 with errorFlag := .fail }, { block cfgA [.reset] [] with errorFlag := .fail }],
      s.errorFlag = .fail ∧ gives (step s) (fun t => t.errorFlag == .ok) = true) ∧
    (validating .ok (frame3 0x12#8 0x34#8 0x00#8)).errorFlag = .ok := by decide

/-- `RegisterWriters`: a step that changes each group of registers. -/
theorem test_witness_RegisterWriters :
    gives (step { at0 cfgA .configure [.run] [0x01#8] with configured := false }) (fun t => t.configured) = true ∧
    gives (step (about cfgA [.run] [])) (fun t => t.dSettle == 5 && t.fLength == 3) = true ∧
    gives (step (at0 cfgC .toDisable [.run] [])) (fun t => t.fLength == 0) = true ∧
    (about cfgA [.run] []).dSettle ≠ 5 ∧ (at0 cfgC .toDisable [.run] []).fLength ≠ 0 := by decide

/-- `WriteRights`: the two writers of the frame buffer, the setting and the clearing of `ready`, an arming, and the four
places at which an arm bit falls. -/
theorem test_witness_WriteRights :
    (∀ s ∈ [{ at0 cfgA .receive [.run] [0x34#8] with fBytes := [(0, 0x12#8)], idx := 1 },
        hdl0 cfgC .rxReceive [.run] [0x3F#8],
        { hdl0 cfgC .rxClear [.run] [] with armRx := false, fBytes := frame3 0x3F#8 0xFC#8 0x88#8 },
        { at0 cfgC .opening [.run] [] with ready := true }, at0 cfgC .enableRx [.run] [],
        hdl0 cfgC .txDisable [.run] [], { hdl0 cfgC .rxDisable [.run] [] with fBytes := frame3 0x3F#8 0xFC#8 0x88#8 },
        { at0 cfgC .toDisableTx [.run] [] with armTx := true, armRx := true },
        { at0 cfgC .toDisableRx [.run] [] with armRx := true }],
      checks s = true ∧ s.turn ≠ .reset) ∧
    gives (step { hdl0 cfgC .rxClear [.run] [] with armRx := false, fBytes := frame3 0x3F#8 0xFC#8 0x88#8 })
      (fun t => t.ready) = true ∧
    gives (step { at0 cfgC .opening [.run] [] with ready := true }) (fun t => !t.ready) = true ∧
    gives (step (at0 cfgC .enableRx [.run] [])) (fun t => t.armRx) = true ∧
    gives (step (hdl0 cfgC .txDisable [.run] [])) (fun t => !t.armTx && t.armRx) = true ∧
    gives (step { hdl0 cfgC .rxDisable [.run] [] with fBytes := frame3 0x3F#8 0xFC#8 0x88#8 })
      (fun t => t.armTx && !t.armRx) = true ∧
    gives (step { at0 cfgC .toDisableTx [.run] [] with armTx := true, armRx := true })
      (fun t => !t.armTx && t.armRx) = true ∧
    gives (step { at0 cfgC .toDisableRx [.run] [] with armRx := true }) (fun t => !t.armRx) = true := by decide

/-- `DisciplinesIssueTheirOwn`, `HistoryGrowsByOne`: a request in each discipline. -/
theorem test_witness_DisciplinesIssueTheirOwn :
    checks (at0 cfgA .observe [.run] [0x01#8]) = true ∧ checks (at0 cfgC .enableTx [.run] []) = true ∧
    gives (step (at0 cfgA .observe [.run] [0x01#8])) (fun t => t.trace == [] ++ [asked .tTransferComplete 0x01#8]) = true ∧
    gives (step (at0 cfgC .enableTx [.run] [])) (fun t => t.trace == [] ++ [called (.tEnableInterrupt .txEmpty)]) = true ∧
    cfgA.discipline = .polling ∧ cfgC.discipline = .interrupt := by decide

theorem test_witness_HistoryGrowsByOne :
    step (at0 cfgA .observe [.reset] []) = .next (nextOf (step (at0 cfgA .observe [.reset] []))) ∧
    (at0 cfgA .observe [.reset] []).turn ≠ .run := ⟨rfl, by decide⟩

/-- A request of the sequencer at the least length, and one of the handler. -/
theorem test_witness_PresentedRequestsWellFormed :
    (checks ({ at0 cfgA .rest [] [] with fLength := 2, pstate := .idle }.goTo .setWordCount) = true ∧
      ({ at0 cfgA .rest [] [] with fLength := 2, pstate := .idle }.goTo .setWordCount).sreq =
        some (.transport 0x4002#16)) ∧
    (checks (hdl0 cfgC .txTransmit [] []) = true ∧ (hdl0 cfgC .txTransmit [] []).hreq = some (.transport 0x6000#16)) := by decide

theorem test_witness_ResetFromAnyState :
    (at0 cfgC .watch [.reset, .interrupt] []).turn = .reset ∧
    (nextOf (step (at0 cfgC .watch [.reset, .interrupt] []))).turn = .interrupt := by decide

theorem test_witness_StepKeepsInvariant (s : State) (h : s ∈ steps) : s.Inv ∧ step s = .next (nextOf (step s)) := by
  refine ⟨test_witness_inv_step s h, ?_⟩
  have := (test_steps_checks s h).2.2
  cases hs : step s with
  | next t => rfl
  | fault e => rw [hs] at this; cases this
  | refused e => rw [hs] at this; cases this

theorem test_witness_StepAnswersNext : (about cfgC [] []).Inv := test_about_inv.2.2

end Sys2Proof.Tests
end

/-! Proof of O9: `cfg_ok` (R4) as a proposition, one lemma for each part of the check. -/
section
namespace Sys2Proof.Machine

theorem descriptorOk_iff (cfg : Config) (d : Descriptor) : descriptorOk cfg d = true ↔
    2 ≤ d.rlen ∧ d.rlen ≤ cfg.frameCap ∧ d.settle < 2 ^ cfg.tickW ∧ (cfg.mode = .rxOnly → d.code = none) := by
  have receiveOnly : (cfg.mode != .rxOnly || d.code.isNone) = true ↔ (cfg.mode = .rxOnly → d.code = none) := by
    simp [imp_iff_not_or]
  simp [descriptorOk, receiveOnly, and_assoc]

theorem waitLimitOk_iff (limit : Option Nat) :
    waitLimitOk limit = true ↔ limit = none ∨ ∃ n, limit = some n ∧ 1 ≤ n := by
  cases limit with
  | none => simp [waitLimitOk]
  | some n => simp [waitLimitOk]

/-- What a lookup finds is in the list, so checking the ids of the list's entries checks every id. -/
theorem all_descriptorOf_iff (cfg : Config) (p : Descriptor → Bool) :
    (cfg.cmd.all fun e => (descriptorOf cfg e.1).all p) = true ↔
      ∀ id d, cfg.cmd.lookup id = some d → p d = true := by
  simp only [List.all_eq_true, Option.all_eq_true, descriptorOf]
  constructor
  · intro h id d found
    obtain ⟨before, after, split, -⟩ := List.lookup_eq_some_iff.mp found
    exact h (id, d) (by simp [split]) d found
  · intro h e _ d found
    exact h e.1 d found

/-- Settles O9: each part of the check is its own clause of R4. -/
theorem configurationWellFormed : Obligations.ConfigurationWellFormed := by
  unfold Obligations.ConfigurationWellFormed
  intro cfg
  simp only [cfgOk, Bool.and_eq_true, decide_eq_true_eq, waitLimitOk_iff, all_descriptorOf_iff, descriptorOk_iff]
  tauto

end Sys2Proof.Machine
end

/-! The invariant taken apart: what it says of the registers, of a place of the sequencer, and of a place of the
handler. A move of one context then has to show its own place's part alone. -/
section
namespace Sys2Proof.Machine

/-! ### What a well-formed build gives (R4) -/

theorem cfgOk_frameCap {cfg : Config} (h : cfgOk cfg = true) : 2 ≤ cfg.frameCap ∧ cfg.frameCap ≤ 255 := by
  simp only [cfgOk, Bool.and_eq_true, decide_eq_true_eq] at h
  exact h.1.1

/-- A bounded wait has at least one observation. -/
theorem cfgOk_waitLimit {cfg : Config} (h : cfgOk cfg = true) {n : Nat} (hn : cfg.waitLimit = some n) : 0 < n := by
  simp only [cfgOk, Bool.and_eq_true, hn, waitLimitOk_iff] at h
  simpa [Nat.succ_le_iff] using h.1.2

/-- Every descriptor of the build has a frame's length and a delay of TICK_W bits. -/
theorem cfgOk_descriptor {cfg : Config} (h : cfgOk cfg = true) {a : Byte} {d : Descriptor}
    (hd : descriptorOf cfg a = some d) : 2 ≤ d.rlen ∧ d.rlen ≤ cfg.frameCap ∧ d.settle < 2 ^ cfg.tickW := by
  simp only [cfgOk, Bool.and_eq_true, all_descriptorOf_iff] at h
  obtain ⟨hmin, hmax, hsettle, -⟩ := (descriptorOk_iff cfg d).1 (h.2 a d hd)
  exact ⟨hmin, hmax, hsettle⟩

/-! ### What a presented request decodes to -/

/-- A request's word decodes to the operation it was made from (R57, R59). -/
theorem decodeRequest_requestOf {i : Instr} {r : Request} (h : requestOf i = some r) : decodeRequest r = .ok i := by
  cases i <;> simp only [requestOf, encode, reduceCtorEq, Option.some.injEq] at h <;> subst h
  case tEnableInterrupt src => cases src <;> simp [decodeRequest, decodeTransport, decodeSource, sourceNumber]
  case tDisableInterrupt src => cases src <;> simp [decodeRequest, decodeTransport, decodeSource, sourceNumber]
  case tClearInterrupt src => cases src <;> simp [decodeRequest, decodeTransport, decodeSource, sourceNumber]
  case tConfigure m f => cases m <;> cases f <;> simp [decodeRequest, decodeTransport, decodeSettings, settingsArg]
  all_goals simp [decodeRequest, decodeTransport, withoutArg]

/-- Every operation at a place of the sequencer has a word of a request port. -/
theorem requestOf_seqRequest {s : State} {p : SeqPos} {i : Instr} (h : seqRequest s p = some i) :
    ∃ r, requestOf i = some r := by
  cases p <;> simp only [seqRequest, reduceCtorEq, Option.some.injEq] at h <;> subst h <;> exact ⟨_, rfl⟩

/-- Every operation at a place of the handler has a word of a request port. -/
theorem requestOf_hdlRequest {s : State} {p : HdlPos} {i : Instr} (h : hdlRequest s p = some i) :
    ∃ r, requestOf i = some r := by
  cases p <;> simp only [hdlRequest, reduceCtorEq, Option.some.injEq] at h <;> subst h <;> exact ⟨_, rfl⟩

/-- What the sequencer presents in a state with the invariant decodes to the operation of its place. -/
theorem State.Inv.seqRequest_of_presented {s : State} (h : s.Inv) {i : Instr} {r : Request} (hr : s.sreq = some r)
    (hi : decodeRequest r = .ok i) : seqRequest s s.seq = some i := by
  rw [h.presented] at hr
  obtain ⟨j, hj, hr⟩ := Option.bind_eq_some_iff.1 hr
  rw [decodeRequest_requestOf hr, Except.ok.injEq] at hi
  exact hi ▸ hj

/-- What the handler presents in a state with the invariant decodes to the operation of its place. -/
theorem State.Inv.hdlRequest_of_presented {s : State} (h : s.Inv) {i : Instr} {r : Request} (hr : s.hreq = some r)
    (hi : decodeRequest r = .ok i) : hdlRequest s s.hdl = some i := by
  rw [h.hdlPresented] at hr
  obtain ⟨j, hj, hr⟩ := Option.bind_eq_some_iff.1 hr
  rw [decodeRequest_requestOf hr, Except.ok.injEq] at hi
  exact hi ▸ hj

/-! ### The parts of the invariant -/

/-- What the invariant says of the registers wherever the two contexts stand. -/
structure State.Sound (s : State) : Prop where
  memWf : Memory.wf s.fBytes
  memBelow : ∀ c ∈ s.fBytes, c.1 < s.cfg.frameCap
  configuredOk : s.configured = true → cfgOk s.cfg = true
  length : s.fLength = 0 ∨ (cfgOk s.cfg = true ∧ 2 ≤ s.fLength ∧ s.fLength ≤ s.cfg.frameCap)
  quiet : s.cfg.discipline = .polling → s.armTx = false ∧ s.armRx = false ∧ s.ready = false ∧ s.irqPending = false

/-- What the invariant asks of the registers for the sequencer to stand at place `p`. -/
structure State.SeqAt (s : State) (p : SeqPos) : Prop where
  setupOk : p = .configure → cfgOk s.cfg = true
  phase : s.pstate = pstateAt p
  inFlight : p.inCapture = true → s.configured = true ∧ 2 ≤ s.fLength ∧ s.dSettle < 2 ^ s.cfg.tickW
  pollPlaces : p.polls = true → s.cfg.discipline = .polling
  irqPlaces : p.interruptOnly = true → s.cfg.discipline = .interrupt
  polled : p.polls = true → s.idx < s.fLength ∧ Memory.filled s.fBytes s.idx
  complete : p.frameComplete = true → Memory.filled s.fBytes s.fLength
  announced : p = .watch → s.ready = true → Memory.filled s.fBytes s.fLength ∧ s.armRx = false
  cleared : p = .enableTx ∨ p = .enableRx → s.ready = false
  waitLeft : p = .observe ∨ p = .watch → ∀ n, s.cfg.waitLimit = some n → s.wcnt < n

/-- What the invariant asks of the registers for the handler to stand at place `p`. -/
structure State.HdlAt (s : State) (p : HdlPos) : Prop where
  discipline : p ≠ .idle → s.cfg.discipline = .interrupt
  drainPlace : p.drains = true → s.seq.rxMayBeArmed = true
  doRxArmed : p.transmits = true → s.hDoRx = true → s.armRx = true
  draining : p = .rxReceive → s.hk < s.fLength ∧ Memory.filled s.fBytes s.hk
  drained : p = .rxDisable ∨ p = .rxClear → Memory.filled s.fBytes s.fLength
  drainArmed : p = .rxReceive ∨ p = .rxDisable → s.armRx = true
  disarmed : p = .rxClear → s.armRx = false
  pendingInRun : s.irqPending = true → p ≠ .idle

/-- The invariant without its clauses on the handler's place: what a move of the handler finds and has to leave. -/
structure State.SeqInv (s : State) : Prop where
  sound : s.Sound
  seqAt : s.SeqAt s.seq
  presented : s.sreq = (seqRequest s s.seq).bind requestOf
  rxArmed : s.armRx = true → s.seq.rxMayBeArmed = true
  delayPlace : s.delayBusy = true → s.seq = .settle

/-- No handler run is in progress and none is owed: what a move of the sequencer finds and leaves. -/
structure State.HdlRests (s : State) : Prop where
  hdl : s.hdl = .idle
  hreq : s.hreq = none
  irqPending : s.irqPending = false

/-- The invariant is its two contexts' parts. -/
theorem inv_iff {s : State} :
    s.Inv ↔ s.SeqInv ∧ s.HdlAt s.hdl ∧ s.hreq = (hdlRequest s s.hdl).bind requestOf := by
  constructor
  · intro h
    have discipline : s.hdl ≠ .idle → s.cfg.discipline = .interrupt := by
      intro running
      cases hd : s.cfg.discipline with
      | interrupt => rfl
      | polling => exact absurd (h.quiet hd).2.2.2.1 running
    have quiet (hd : s.cfg.discipline = .polling) :
        s.armTx = false ∧ s.armRx = false ∧ s.ready = false ∧ s.irqPending = false := by simp [h.quiet hd]
    exact ⟨{ h with sound := { h with quiet }, seqAt := { h with } }, { h with discipline }, h.hdlPresented⟩
  · rintro ⟨h, hdlAt, hdlPresented⟩
    have quiet (hd : s.cfg.discipline = .polling) :
        s.armTx = false ∧ s.armRx = false ∧ s.ready = false ∧ s.hdl = .idle ∧ s.irqPending = false := by
      have resting : s.hdl = .idle := by
        by_contra running
        simpa [hd] using hdlAt.discipline running
      simp [h.sound.quiet hd, resting]
    exact { h, h.sound, h.seqAt, hdlAt with quiet, hdlPresented }

/-- Between two handler runs the invariant is the sequencer's part alone. -/
theorem State.HdlRests.inv {s : State} (h : s.HdlRests) (hs : s.SeqInv) : s.Inv := by
  refine inv_iff.2 ⟨hs, ?_, by simp [h.hdl, h.hreq, hdlRequest]⟩
  constructor <;> simp [h.hdl, h.irqPending, HdlPos.drains, HdlPos.transmits]

theorem State.Inv.hdlRests {s : State} (h : s.Inv) (hh : s.hdl = .idle) : s.HdlRests where
  hdl := hh
  hreq := by simp [h.hdlPresented, hh, hdlRequest]
  irqPending := by simpa [hh] using h.pendingInRun

theorem State.Inv.seqInv {s : State} (h : s.Inv) : s.SeqInv := (inv_iff.1 h).1
theorem State.Inv.hdlAt {s : State} (h : s.Inv) : s.HdlAt s.hdl := (inv_iff.1 h).2.1

end Sys2Proof.Machine
end

/-! The sequencer's moves keep the invariant: one lemma for the arrival at a place, then one for each shared move of the
program, and from these everything a completed request and an action can lead to. -/
section
namespace Sys2Proof.Machine

/-- The part answers a next state, and that state has the invariant. -/
def AnswersInv (r : Result State) : Prop := ∃ t, r = .next t ∧ t.Inv

theorem answersInv_next {t : State} (h : t.Inv) : AnswersInv (.next t) := ⟨t, rfl, h⟩

/-! ### Requests -/

/-- A place's request is made of these registers alone. -/
theorem seqRequest_congr {s u : State} (cfg : u.cfg = s.cfg) (fLength : u.fLength = s.fLength)
    (dSettle : u.dSettle = s.dSettle) (idx : u.idx = s.idx) (dHascode : u.dHascode = s.dHascode)
    (dCode : u.dCode = s.dCode) (p : SeqPos) : seqRequest u p = seqRequest s p := by
  cases p <;> simp [seqRequest, pollingByte, txByte, cfg, fLength, dSettle, idx, dHascode, dCode]

/-- Only a delay request makes the delay service busy (R145). -/
theorem exec_delayBusy {i : Instr} (hi : i.isHostOp = false) {s u : State} (h : exec i s = .next u)
    (hb : u.delayBusy = true) : s.delayBusy = true ∨ ∃ n, i = .dWaitTicks n := by
  cases i <;> simp only [Instr.isHostOp, Bool.true_eq_false] at hi
  case dWaitTicks n => exact .inr ⟨n, rfl⟩
  all_goals
    cases h
    exact .inl (by simpa using hb)

/-- A delay request stands at one place. -/
theorem seqRequest_waitTicks {s : State} {p : SeqPos} {n : Nat} (h : seqRequest s p = some (.dWaitTicks n)) :
    p = .waitTicks := by cases p <;> simp [seqRequest] at h ⊢

/-- Making a request leaves the registers sound, if polling enables no source by it. -/
theorem PortMade.sound {i : Instr} {s u : State} (made : PortMade i s u) (h : s.Sound)
    (noEnable : s.cfg.discipline = .polling → ∀ src, i ≠ .tEnableInterrupt src) : u.Sound where
  memWf := made.fBytes ▸ h.memWf
  memBelow := by simpa only [made.fBytes, made.cfg] using h.memBelow
  configuredOk := by simpa only [made.configured, made.cfg] using h.configuredOk
  length := by simpa only [made.fLength, made.cfg] using h.length
  quiet := by
    intro hd
    rw [made.cfg] at hd
    simp [made.armTx, made.armRx, made.ready, made.irqPending, h.quiet hd, armAfter, noEnable hd]

/-- Making a request leaves the registers right for the sequencer's place, if it does not arm RX_FULL in the wait. -/
theorem PortMade.seqAt {i : Instr} {s u : State} (made : PortMade i s u) {p : SeqPos} (h : s.SeqAt p)
    (armed : p = .watch → u.armRx = true → s.armRx = true) : u.SeqAt p where
  setupOk := by simpa only [made.cfg] using h.setupOk
  phase := by simpa only [made.pstate] using h.phase
  inFlight := by simpa only [made.configured, made.fLength, made.dSettle, made.cfg] using h.inFlight
  pollPlaces := by simpa only [made.cfg] using h.pollPlaces
  irqPlaces := by simpa only [made.cfg] using h.irqPlaces
  polled := by simpa only [made.idx, made.fLength, made.fBytes] using h.polled
  complete := by simpa only [made.fLength, made.fBytes] using h.complete
  announced := by
    intro watch ready
    rw [made.ready] at ready
    obtain ⟨filled, disarmed⟩ := h.announced watch ready
    rw [made.fBytes, made.fLength]
    exact ⟨filled, by simpa [disarmed] using armed watch⟩
  cleared := by simpa only [made.ready] using h.cleared
  waitLeft := by simpa only [made.cfg, made.wcnt] using h.waitLeft

/-! ### Arrival at a place -/

/-- What a state needs for the sequencer to go to place `p` with the invariant. -/
structure State.CanStand (s : State) (p : SeqPos) : Prop where
  sound : s.Sound
  rests : s.HdlRests
  seqAt : s.SeqAt p
  rxArmed : s.armRx = true → p.rxMayBeArmed = true
  delayPlace : s.delayBusy = true → p = .settle

theorem State.CanStand.goTo_inv {s : State} {p : SeqPos} (h : s.CanStand p) : (s.goTo p).Inv := by
  have rests : (s.goTo p).HdlRests := { h.rests with }
  exact rests.inv { h with sound := { h.sound with }, seqAt := { h.seqAt with }, presented := rfl }

/-- Place `q` asks nothing of the registers that place `p` does not ask, `pstate` apart. -/
def SeqPos.asksNoMoreThan (q p : SeqPos) : Bool :=
  q != .configure && q != .watch && q != .enableTx && (q != .enableRx || p == .enableTx) &&
    (q != .observe || p == .observe) && (!q.inCapture || p.inCapture) && (!q.polls || p.polls) &&
    (!q.interruptOnly || p.interruptOnly) && (!q.frameComplete || p.frameComplete)

/-- Where the registers stand right for `p` they stand right for a place that asks no more, once `pstate` is that
place's. -/
theorem State.SeqAt.writePstate {s : State} {p q : SeqPos} (h : s.SeqAt p) (ask : q.asksNoMoreThan p = true)
    {x : PState} (hx : x = pstateAt q) : { s with pstate := x }.SeqAt q := by
  simp only [SeqPos.asksNoMoreThan, Bool.and_eq_true, Bool.or_eq_true, bne_iff_ne, beq_iff_eq,
    Bool.not_eq_true'] at ask
  obtain ⟨⟨⟨⟨⟨⟨⟨⟨setup, watch⟩, enableTx⟩, enableRx⟩, observe⟩, capture⟩, polls⟩, irq⟩, complete⟩ := ask
  exact {
    setupOk := fun e => absurd e setup
    phase := hx
    inFlight := fun e => h.inFlight (by simpa [e] using capture)
    pollPlaces := fun e => h.pollPlaces (by simpa [e] using polls)
    irqPlaces := fun e => h.irqPlaces (by simpa [e] using irq)
    polled := fun e => h.polled (by simpa [e] using polls)
    complete := fun e => h.complete (by simpa [e] using complete)
    announced := fun e => absurd e watch
    cleared := fun e => h.cleared (.inl (enableRx.resolve_left fun n => n (e.resolve_left enableTx)))
    waitLeft := fun e => h.waitLeft (.inl (observe.resolve_left fun n => n (e.resolve_right watch))) }

/-- The same where `pstate` is already that place's. -/
theorem State.SeqAt.move {s : State} {p q : SeqPos} (h : s.SeqAt p) (ask : q.asksNoMoreThan p = true)
    (hq : pstateAt p = pstateAt q) : s.SeqAt q :=
  h.writePstate ask (h.phase.trans hq)

/-- A place that only the interrupt discipline has, and that asks no more than another in all else. -/
theorem State.SeqAt.atInterruptPlace {s : State} {q : SeqPos} (phase : s.pstate = pstateAt q)
    (discipline : s.cfg.discipline = .interrupt)
    (inFlight : s.configured = true ∧ 2 ≤ s.fLength ∧ s.dSettle < 2 ^ s.cfg.tickW)
    (hq : q = .setTrigger ∨ q = .toDisableTx ∨ (q = .enableTx ∧ s.ready = false)) : s.SeqAt q := by
  rcases hq with rfl | rfl | ⟨rfl, cleared⟩ <;> constructor <;>
    simp [SeqPos.polls, SeqPos.frameComplete, *]

/-! ### The polling transfer and the waits -/

/-- The polling transfer stands before byte `idx` of the frame, the bytes below it stored (R105 to R107). -/
structure State.Polling (s : State) : Prop where
  sound : s.Sound
  rests : s.HdlRests
  phase : s.pstate = .transferring
  discipline : s.cfg.discipline = .polling
  inFlight : s.configured = true ∧ 2 ≤ s.fLength ∧ s.dSettle < 2 ^ s.cfg.tickW
  stored : s.idx ≤ s.fLength ∧ Memory.filled s.fBytes s.idx
  noDelay : s.delayBusy = false

/-- Before a byte of the frame the transfer can go to each of its places, to an observation with the wait's counter in
its range. -/
theorem State.Polling.canStand {s : State} (h : s.Polling) (hidx : s.idx < s.fLength) {p : SeqPos}
    (hp : p.polls = true) (wait : p = .observe → ∀ n, s.cfg.waitLimit = some n → s.wcnt < n) : s.CanStand p where
  sound := h.sound
  rests := h.rests
  rxArmed := by simp [h.sound.quiet h.discipline]
  delayPlace := by simp [h.noDelay]
  seqAt := by
    have stored : s.idx < s.fLength ∧ Memory.filled s.fBytes s.idx := ⟨hidx, h.stored.2⟩
    cases p <;> simp only [SeqPos.polls, Bool.or_eq_true, beq_iff_eq, reduceCtorEq, or_self] at hp
    all_goals constructor
    case observe.waitLeft => exact fun _ => wait rfl
    all_goals
      simp [pstateAt, SeqPos.interruptOnly, SeqPos.frameComplete, h.phase, h.discipline, h.inFlight, stored]

/-- The last byte stored, transition 4 can begin. -/
theorem State.Polling.canDeassert {s : State} (h : s.Polling) (hidx : s.fLength ≤ s.idx) :
    s.CanStand .deassertSelect where
  sound := h.sound
  rests := h.rests
  rxArmed := by simp [h.sound.quiet h.discipline]
  delayPlace := by simp [h.noDelay]
  seqAt := by
    have complete : Memory.filled s.fBytes s.fLength := by
      rw [Nat.le_antisymm hidx h.stored.1]
      exact h.stored.2
    constructor <;> simp [pstateAt, SeqPos.polls, SeqPos.interruptOnly, h.phase, h.inFlight, complete]

/-- A wait begins with its counter in range (R112). -/
theorem State.Polling.startWait_inv {s : State} (h : s.Polling) (hidx : s.idx < s.fLength) :
    (s.startWait .observe).Inv := by
  have cleared : { s with wcnt := 0 }.Polling := { h with sound := { h.sound with }, rests := { h.rests with } }
  exact (cleared.canStand hidx rfl fun _ _ limit => cfgOk_waitLimit (h.sound.configuredOk h.inFlight.1) limit).goTo_inv

theorem State.Polling.nextByte_inv {s : State} (h : s.Polling) : s.nextByte.Inv := by
  unfold State.nextByte
  split
  case isTrue done => exact (h.canDeassert done).goTo_inv
  case isFalse more =>
    have hidx : s.idx < s.fLength := by omega
    split
    · exact (h.canStand hidx rfl (by simp)).goTo_inv
    · split
      · exact (h.canStand hidx rfl (by simp)).goTo_inv
      · exact h.startWait_inv hidx

/-- The wait's counter can move where it stays in its range, and anywhere at a place that is no wait. -/
theorem State.CanStand.count {s : State} {p : SeqPos} (h : s.CanStand p) {k : Nat}
    (wait : p = .observe ∨ p = .watch → ∀ n, s.cfg.waitLimit = some n → k < n) :
    { s with wcnt := k }.CanStand p :=
  { h with
    sound := { h.sound with }
    rests := { h.rests with }
    seqAt := { h.seqAt with waitLeft := wait } }

/-- The timeout sequence begins from either wait, whatever the counter reads (R113). -/
theorem State.CanStand.startTimeout_inv {s : State} {p : SeqPos} (h : s.CanStand p)
    (hp : p = .observe ∨ p = .watch) (k : Nat) : ({ s with wcnt := k }.startTimeout).Inv := by
  have noDelay : s.delayBusy = false := by
    by_contra busy
    rcases hp with rfl | rfl <;> simpa using h.delayPlace (by simpa using busy)
  have first {q : SeqPos} (seqAt : s.SeqAt q) (armed : s.armRx = true → q.rxMayBeArmed = true)
      (noWait : q ≠ .observe ∧ q ≠ .watch) : ({ s with wcnt := k }.goTo q).Inv := by
    have stand : s.CanStand q := { h with seqAt, rxArmed := armed, delayPlace := by simp [noDelay] }
    exact (stand.count (by simp [noWait])).goTo_inv
  have phase : s.pstate = .transferring := by rcases hp with rfl | rfl <;> exact h.seqAt.phase
  have inFlight := h.seqAt.inFlight (by rcases hp with rfl | rfl <;> rfl)
  unfold State.startTimeout
  split
  case h_1 polling =>
    refine first (h.seqAt.move ?_ ?_) (by simp [h.sound.quiet polling]) (by simp) <;>
      rcases hp with rfl | rfl <;> rfl
  case h_2 interrupt => exact first (.atInterruptPlace phase interrupt inFlight (by simp)) (fun _ => rfl) (by simp)

/-- A failed observation is made again or starts the timeout sequence (R112, R113). -/
theorem State.CanStand.failedObservation_inv {s : State} {p : SeqPos} (h : s.CanStand p)
    (hp : p = .observe ∨ p = .watch) : (s.failedObservation p).Inv := by
  cases limit : s.cfg.waitLimit with
  | none =>
    rw [failedObservation_unbounded s p limit]
    exact h.goTo_inv
  | some n =>
    have left : s.wcnt < n := h.seqAt.waitLeft hp n limit
    by_cases last : s.wcnt + 1 = n
    · rw [failedObservation_timeout s p n limit last]
      exact h.startTimeout_inv hp _
    · rw [failedObservation_again s p n limit last]
      refine (h.count fun _ m hm => ?_).goTo_inv
      obtain rfl : n = m := by simpa [limit] using hm
      omega

/-! ### A completed request of the sequencer -/

/-- What holds when the request the sequencer presented is made and it has not yet gone on: RX_FULL is armed at the
places where it is being enabled or not yet disabled, and a delay is out where it was asked for. -/
structure State.SeqDone (s : State) : Prop where
  sound : s.Sound
  rests : s.HdlRests
  seqAt : s.SeqAt s.seq
  rxArmed : s.armRx = true → s.seq = .enableRx ∨ s.seq = .toDisableTx
  delayPlace : s.delayBusy = true → s.seq = .waitTicks

/-- Making the request of the sequencer's place leads from the invariant to `SeqDone`. -/
theorem State.Inv.seqDone {s u : State} {i : Instr} (h : s.Inv) (hh : s.hdl = .idle) (hb : s.delayBusy = false)
    (hi : seqRequest s s.seq = some i) (port : i.isHostOp = false) (he : exec i s = .next u) (made : PortMade i s u) :
    u.SeqDone := by
  have rests := h.hdlRests hh
  have noWatch : s.seq ≠ .watch := by
    intro e
    simp [e, seqRequest] at hi
  have noEnable (src : Source) (hd : s.cfg.discipline = .polling) : i ≠ .tEnableInterrupt src := by
    rintro rfl
    have irq := h.irqPlaces (by rw [seqRequest_enable s s.seq src hi]; cases src <;> rfl)
    simp [hd] at irq
  have rxArmed : u.armRx = true → s.seq = .enableRx ∨ s.seq = .toDisableTx := by
    rw [made.armRx]
    unfold armAfter
    split
    case isTrue enable => exact fun _ => .inl (seqRequest_enable s s.seq .rxFull (enable ▸ hi))
    case isFalse =>
      split
      case isTrue => simp
      case isFalse stays =>
        intro armed
        have place := h.rxArmed armed
        simp only [SeqPos.rxMayBeArmed, Bool.or_eq_true, beq_iff_eq] at place
        rcases place with (place | place) | place
        · exact absurd place noWatch
        · exact .inr place
        · simp [place, seqRequest, eq_comm] at hi
          exact absurd hi stays
  exact {
    sound := made.sound h.seqInv.sound fun hd src => noEnable src hd
    rests := ⟨made.hdl.trans rests.hdl, made.hreq.trans rests.hreq, made.irqPending.trans rests.irqPending⟩
    seqAt := made.seq ▸ made.seqAt h.seqInv.seqAt fun watch => absurd watch noWatch
    rxArmed := by rwa [made.seq]
    delayPlace := by
      intro busy
      rcases exec_delayBusy port he busy with old | ⟨n, rfl⟩
      · simp [hb] at old
      · rw [made.seq]
        exact seqRequest_waitTicks hi }

/-- Where the sequencer can stand once its request is complete. -/
theorem State.SeqDone.canStand {s : State} (h : s.SeqDone) {p q : SeqPos} (hp : s.seq = p) (seqAt : s.SeqAt q)
    (armed : p = .enableRx ∨ p = .toDisableTx → q.rxMayBeArmed = true) (delay : p = .waitTicks → q = .settle) :
    s.CanStand q :=
  { h with seqAt, rxArmed := fun e => armed (hp ▸ h.rxArmed e), delayPlace := fun e => delay (hp ▸ h.delayPlace e) }

/-- The sequencer goes on to a place of the same transition that asks no more. -/
theorem State.SeqDone.move_inv {s : State} (h : s.SeqDone) {p q : SeqPos} (hp : s.seq = p)
    (ask : q.asksNoMoreThan p = true) (hq : pstateAt p = pstateAt q)
    (armed : p = .enableRx ∨ p = .toDisableTx → q.rxMayBeArmed = true) (delay : p = .waitTicks → q = .settle) :
    (s.goTo q).Inv :=
  (h.canStand hp ((hp ▸ h.seqAt).move ask hq) armed delay).goTo_inv

/-- A response changes nothing the invariant speaks of. -/
theorem State.Inv.respond {s : State} (h : s.Inv) (st : Status) (d : Byte) : (s.respond st d).Inv :=
  { h with presented := h.presented, hdlPresented := h.hdlPresented }

theorem State.Inv.raise {s : State} (h : s.Inv) (e : HostError) : (s.raise e).Inv := h.respond _ _

/-- The sequencer can come to rest with `pstate` IDLE, every byte below F.length in the buffer, and RX_FULL disarmed. -/
theorem restsInv {s : State} (sound : s.Sound) (rests : s.HdlRests) (phase : s.pstate = .idle)
    (complete : Memory.filled s.fBytes s.fLength) (disarmed : s.armRx = false) (noDelay : s.delayBusy = false) :
    s.retire.Inv := by
  have seqAt : s.SeqAt .rest := by
    constructor <;> simp [pstateAt, SeqPos.inCapture, SeqPos.polls, SeqPos.interruptOnly, phase, complete]
  exact State.CanStand.goTo_inv ⟨sound, rests, seqAt, by simp [disarmed], by simp [noDelay]⟩

theorem State.SeqDone.disarmed {s : State} (h : s.SeqDone) {p : SeqPos} (hp : s.seq = p)
    (hn : p ≠ .enableRx ∧ p ≠ .toDisableTx) : s.armRx = false := by
  by_contra armed
  subst hp
  simpa [hn] using h.rxArmed (by simpa using armed)

theorem State.SeqDone.noDelay {s : State} (h : s.SeqDone) {p : SeqPos} (hp : s.seq = p) (hn : p ≠ .waitTicks) :
    s.delayBusy = false := by
  by_contra busy
  subst hp
  exact hn (h.delayPlace (by simpa using busy))

/-- Inside the polling transfer a completed request leaves the transfer before byte `idx`. -/
theorem State.SeqDone.polling {s : State} (h : s.SeqDone) (hp : s.seq.polls = true) : s.Polling where
  sound := h.sound
  rests := h.rests
  phase := by rw [h.seqAt.phase]; revert hp; cases s.seq <;> simp [SeqPos.polls, pstateAt]
  discipline := h.seqAt.pollPlaces hp
  inFlight := h.seqAt.inFlight (by revert hp; cases s.seq <;> simp [SeqPos.polls, SeqPos.inCapture])
  stored := ⟨(h.seqAt.polled hp).1.le, (h.seqAt.polled hp).2⟩
  noDelay := h.noDelay rfl (by rintro e; simp [e, SeqPos.polls] at hp)

/-- A frame in flight lies inside the buffer. -/
theorem State.Sound.length_le {s : State} (h : s.Sound) (hl : 2 ≤ s.fLength) :
    cfgOk s.cfg = true ∧ s.fLength ≤ s.cfg.frameCap := by
  rcases h.length with zero | ⟨ok, -, le⟩
  · omega
  · exact ⟨ok, le⟩

/-- A write inside the buffer leaves the registers sound. -/
theorem State.Sound.write {s : State} (h : s.Sound) {a : Nat} (ha : a < s.cfg.frameCap) (v : Byte) :
    { s with fBytes := Memory.write s.fBytes a v }.Sound :=
  { h with
    memWf := Memory.wf_write _ _ _ h.memWf
    memBelow := by
      intro c hc
      rcases Memory.mem_write _ _ _ c hc with e | e
      · exact e ▸ ha
      · exact h.memBelow c e }

/-- The polling transfer stores the byte received and goes on (R105 to R107). -/
theorem State.Polling.storeReceived_inv {s : State} (h : s.Polling) (hidx : s.idx < s.fLength) :
    AnswersInv (storeReceived s) := by
  have inside : s.idx < s.cfg.frameCap := Nat.lt_of_lt_of_le hidx (h.sound.length_le h.inFlight.2.1).2
  have written := (memWrite_next s _ s.idx s.tqRd).2 ⟨inside, rfl⟩
  rw [storeReceived, written, andThen_value]
  refine answersInv_next (State.Polling.nextByte_inv { h with sound := ?_, rests := { h.rests with }, stored := ?_ })
  · exact { h.sound.write inside s.tqRd with }
  · exact ⟨hidx, Memory.filled_write_next _ _ _ h.stored.2⟩

/-- Every completed request of the sequencer leads on to a state with the invariant. -/
theorem State.SeqDone.seqResume_inv {s : State} (h : s.SeqDone) {i : Instr} (hi : seqRequest s s.seq = some i) :
    AnswersInv (seqResume s) := by
  unfold seqResume
  have seqAt := h.seqAt
  cases hs : s.seq <;> simp only [hs, seqRequest, reduceCtorEq] at hi seqAt ⊢
  case configure =>
    have rested (b : Bool) (hb : b = true → cfgOk s.cfg = true) : ({ s with configured := b }.retire).Inv :=
      restsInv { h.sound with configuredOk := hb } { h.rests with } seqAt.phase (seqAt.complete rfl)
        (h.disarmed hs (by simp)) (h.noDelay hs (by simp))
    refine answersInv_next ?_
    unfold State.endSetup
    split
    · exact (rested true fun _ => seqAt.setupOk rfl).respond _ _
    · exact (rested s.configured h.sound.configuredOk).raise _
  case setWordCount =>
    refine answersInv_next ?_
    split
    case h_1 interrupt =>
      have atTrigger : s.SeqAt .setTrigger :=
        .atInterruptPlace seqAt.phase interrupt (seqAt.inFlight rfl) (.inl rfl)
      exact (h.canStand hs atTrigger (by simp) (by simp)).goTo_inv
    case h_2 => exact h.move_inv hs rfl rfl (by simp) (by simp)
  case enable =>
    have stand : { s with pstate := .configured }.CanStand .assertSelect :=
      { h with
        sound := { h.sound with }
        rests := { h.rests with }
        seqAt := seqAt.writePstate rfl rfl
        rxArmed := by simp [h.disarmed hs]
        delayPlace := by simp [h.noDelay hs] }
    exact answersInv_next stand.goTo_inv
  case transmit =>
    have polling := h.polling (by simp [hs, SeqPos.polls])
    refine answersInv_next ?_
    unfold State.afterTransmit
    split
    · exact polling.startWait_inv (seqAt.polled rfl).1
    · exact polling.nextByte_inv
  case observe =>
    refine answersInv_next ?_
    split
    · exact h.move_inv hs rfl rfl (by simp) (by simp)
    · exact (h.canStand hs seqAt (by simp) (by simp)).failedObservation_inv (.inl rfl)
  case receive => exact (h.polling (by simp [hs, SeqPos.polls])).storeReceived_inv (seqAt.polled rfl).1
  case enableRx =>
    have seqAt : { s with wcnt := 0 }.SeqAt .watch := by
      have ok := h.sound.configuredOk (seqAt.inFlight rfl).1
      constructor
      case waitLeft => exact fun _ _ limit => cfgOk_waitLimit ok limit
      all_goals
        simp [pstateAt, SeqPos.polls, SeqPos.frameComplete, seqAt.phase, seqAt.inFlight rfl, seqAt.irqPlaces rfl,
          seqAt.cleared]
    have stand : { s with wcnt := 0 }.CanStand .watch :=
      { h with
        sound := { h.sound with }
        rests := { h.rests with }
        seqAt
        rxArmed := fun _ => rfl
        delayPlace := by simp [h.noDelay hs] }
    exact answersInv_next stand.goTo_inv
  case disable =>
    have stand : { s with pstate := .csDeasserted }.CanStand .validate :=
      { h with
        sound := { h.sound with }
        rests := { h.rests with }
        seqAt := seqAt.writePstate rfl rfl
        rxArmed := by simp [h.disarmed hs]
        delayPlace := by simp [h.noDelay hs] }
    exact answersInv_next stand.goTo_inv
  case toDisable =>
    have sound : { s with fLength := 0, pstate := .idle }.Sound := { h.sound with length := .inl rfl }
    exact answersInv_next ((restsInv sound { h.rests with } rfl nofun (h.disarmed hs (by simp))
      (h.noDelay hs (by simp))).raise _)
  all_goals exact answersInv_next (h.move_inv hs rfl rfl (by simp [SeqPos.rxMayBeArmed]) (by simp))

/-! ### The sequencer's actions between two requests -/

/-- Cells that all hold a value, inside the buffer, are read. -/
theorem memReadRange_filled {s : State} {n : Nat} (filled : Memory.filled s.fBytes n) (hn : n ≤ s.cfg.frameCap) :
    ∀ k a, a + k ≤ n → ∃ bs, memReadRange s a k = .next bs ∧ bs.length = k := by
  intro k
  induction k with
  | zero => exact fun a _ => ⟨[], rfl, rfl⟩
  | succ k ih =>
    intro a ha
    obtain ⟨b, hb⟩ := Option.isSome_iff_exists.1 (filled a (by omega))
    obtain ⟨bs, hbs, len⟩ := ih (a + 1) (by omega)
    have first := (memRead_next s a b).2 ⟨by omega, hb⟩
    exact ⟨b :: bs, by rw [memReadRange, first, andThen_value, hbs, andThen_value], by simp [len]⟩

/-- A frame of two bytes or more, complete and inside the buffer, is validated. -/
theorem validate_complete {s : State} (filled : Memory.filled s.fBytes s.fLength) (hl : 2 ≤ s.fLength)
    (hc : s.fLength ≤ s.cfg.frameCap) : ∃ r c, validate s = .next (.ok (s.recordCheck r c)) := by
  obtain ⟨last, hlast⟩ := Option.isSome_iff_exists.1 (filled (s.fLength - 1) (by omega))
  obtain ⟨payload, hp, len⟩ := memReadRange_filled filled hc (s.fLength - 1) 0 (by omega)
  cases payload with
  | nil => simp at len; omega
  | cons b bs =>
    have hlen : s.fLength = bs.length + 2 := by simp at len; omega
    have read := (memRead_next s (bs.length + 1) last).2 ⟨by omega, by simpa [hlen] using hlast⟩
    exact ⟨_, _, validate_frame s b last bs hlen hc (by simpa [hlen] using hp) read⟩

/-- Every action of the sequencer leads on to a state with the invariant. -/
theorem State.Inv.seqAction_inv {s : State} (h : s.Inv) (hh : s.hdl = .idle) (hb : s.delayBusy = false)
    (hn : seqRequest s s.seq = none) : AnswersInv (seqAction s) := by
  have rests := h.hdlRests hh
  have sound := h.seqInv.sound
  have seqAt := h.seqInv.seqAt
  have armed := h.rxArmed
  unfold seqAction
  cases hs : s.seq <;> simp only [hs, seqRequest, reduceCtorEq] at hn seqAt armed ⊢
  case rest => exact answersInv_next h
  case settle =>
    have stand : { s with pstate := .csAsserted }.CanStand .opening :=
      ⟨{ sound with }, { rests with }, seqAt.writePstate rfl rfl, armed, by simp [hb]⟩
    exact answersInv_next stand.goTo_inv
  case opening =>
    have inFlight := seqAt.inFlight rfl
    refine answersInv_next ?_
    unfold State.openTransfer
    split
    case h_1 interrupt =>
      have stand : { s with pstate := .transferring, ready := false }.CanStand .enableTx :=
        { sound := { sound with quiet := by simp [interrupt] }
          rests := { rests with }
          seqAt := .atInterruptPlace rfl interrupt inFlight (by simp)
          rxArmed := armed
          delayPlace := by simp [hb] }
      exact stand.goTo_inv
    case h_2 polling =>
      have transfer : { s with pstate := .transferring, idx := 0 }.Polling :=
        { sound := { sound with }
          rests := { rests with }
          phase := rfl
          discipline := polling
          inFlight
          stored := ⟨Nat.zero_le _, nofun⟩
          noDelay := hb }
      split
      · exact transfer.nextByte_inv
      · exact (transfer.canStand (by simp; omega) rfl (by simp)).goTo_inv
  case watch =>
    refine answersInv_next ?_
    split
    case isTrue ready =>
      obtain ⟨filled, disarmed⟩ := seqAt.announced rfl ready
      have atEnd : s.SeqAt .deassertSelect := by
        constructor <;> simp [pstateAt, SeqPos.polls, SeqPos.interruptOnly, seqAt.phase, seqAt.inFlight rfl, filled]
      exact State.CanStand.goTo_inv ⟨sound, rests, atEnd, by simp [disarmed], by simp [hb]⟩
    case isFalse =>
      have stand : s.CanStand .watch := ⟨sound, rests, seqAt, armed, by simp [hb]⟩
      exact stand.failedObservation_inv (.inr rfl)
  case validate =>
    have long := (seqAt.inFlight rfl).2.1
    obtain ⟨r, c, checked⟩ := validate_complete (seqAt.complete rfl) long (sound.length_le long).2
    have atResponse : { s with pstate := .validated }.SeqAt .respond := seqAt.writePstate rfl rfl
    have stand : { s.recordCheck r c with pstate := .validated }.CanStand .respond :=
      ⟨{ sound with }, { rests with }, { atResponse with }, armed, by simp [hb]⟩
    rw [seqValidate, checked, andThen_value]
    exact answersInv_next stand.goTo_inv
  case respond =>
    have disarmed : s.armRx = false := by simpa [SeqPos.rxMayBeArmed] using armed
    have rested : ({ s with pstate := .idle }.retire).Inv :=
      restsInv { sound with } { rests with } rfl (seqAt.complete rfl) disarmed hb
    exact answersInv_next (rested.respond _ _)

end Sys2Proof.Machine
end

/-! The handler's moves keep the invariant: one lemma for the arrival at a place, one for each shared move of the run,
and from these everything a completed request can lead to. -/
section
namespace Sys2Proof.Machine

/-! ### Arrival at a place -/

/-- The handler can go where the registers stand right. -/
theorem State.SeqInv.hdlGoTo_inv {s : State} (h : s.SeqInv) {p : HdlPos} (hdlAt : s.HdlAt p) : (s.hdlGoTo p).Inv :=
  inv_iff.2 ⟨{ h with sound := { h.sound with }, seqAt := { h.seqAt with }, presented := h.presented },
    { hdlAt with }, rfl⟩

/-- Whether a delivery is remembered is no matter of the sequencer's in the interrupt discipline. -/
theorem State.SeqInv.writePending {s : State} (h : s.SeqInv) (discipline : s.cfg.discipline = .interrupt) (b : Bool) :
    { s with irqPending := b }.SeqInv :=
  { h with sound := { h.sound with quiet := by simp [discipline] }, seqAt := { h.seqAt with }, presented := h.presented }

/-- The handler's own two variables are no matter of the sequencer's. -/
theorem State.SeqInv.writeVariables {s : State} (h : s.SeqInv) (k : Nat) (b : Bool) :
    { s with hk := k, hDoRx := b }.SeqInv :=
  { h with sound := { h.sound with }, seqAt := { h.seqAt with }, presented := h.presented }

/-- A handler run begins (R160). -/
theorem State.SeqInv.enterHandler_inv {s : State} (h : s.SeqInv) (discipline : s.cfg.discipline = .interrupt) :
    s.enterHandler.Inv := by
  refine (h.writePending discipline false).hdlGoTo_inv ?_
  constructor <;> simp [HdlPos.drains, HdlPos.transmits, discipline]

/-- A handler run ends, or the next begins at once (R164). -/
theorem State.SeqInv.leaveHandler_inv {s : State} (h : s.SeqInv) (discipline : s.cfg.discipline = .interrupt) :
    s.leaveHandler.Inv := by
  unfold State.leaveHandler
  split
  · exact h.enterHandler_inv discipline
  · refine (h.writePending discipline false).hdlGoTo_inv ?_
    constructor <;> simp [HdlPos.drains, HdlPos.transmits]

/-- RX_FULL is armed in the interrupt discipline only. -/
theorem State.Sound.discipline_of_armed {s : State} (h : s.Sound) (armed : s.armRx = true) :
    s.cfg.discipline = .interrupt := by
  cases hd : s.cfg.discipline with
  | interrupt => rfl
  | polling => simp [h.quiet hd] at armed

/-- The drain goes on with byte k, or ends when F.length bytes are stored (R163). -/
theorem State.SeqInv.drainNext_inv {s : State} (h : s.SeqInv) (armed : s.armRx = true)
    (hk : s.hk ≤ s.fLength) (filled : Memory.filled s.fBytes s.hk) : s.drainNext.Inv := by
  have discipline := h.sound.discipline_of_armed armed
  have place := h.rxArmed armed
  unfold State.drainNext
  split
  case isTrue more =>
    refine h.hdlGoTo_inv ?_
    constructor <;> simp [HdlPos.transmits, discipline, place, armed, more, filled]
  case isFalse done =>
    have complete : Memory.filled s.fBytes s.fLength := by
      rw [show s.fLength = s.hk by omega]
      exact filled
    refine h.hdlGoTo_inv ?_
    constructor <;> simp [HdlPos.transmits, discipline, place, armed, complete]

/-- After the TX_EMPTY part of a run RX_FULL is serviced if it was found reported and armed (R160). -/
theorem State.SeqInv.hdlAfterTx_inv {s : State} (h : s.SeqInv) (discipline : s.cfg.discipline = .interrupt)
    (doRx : s.hDoRx = true → s.armRx = true) : s.hdlAfterTx.Inv := by
  unfold State.hdlAfterTx
  split
  case isTrue serve => exact (h.writeVariables 0 s.hDoRx).drainNext_inv (doRx serve) (Nat.zero_le _) nofun
  case isFalse => exact h.leaveHandler_inv discipline

/-- The status reply decides which sources the run services (R159, R160). -/
theorem State.SeqInv.hdlServe_inv {s : State} (h : s.SeqInv) (discipline : s.cfg.discipline = .interrupt) :
    s.hdlServe.Inv := by
  have decided := h.writeVariables s.hk (reported s.tqRd .rxFull && s.armRx)
  have doRx : (reported s.tqRd .rxFull && s.armRx) = true → s.armRx = true := by simp
  unfold State.hdlServe
  split
  · refine decided.hdlGoTo_inv ?_
    constructor <;> simp [HdlPos.drains, discipline]
  · exact decided.hdlAfterTx_inv discipline doRx

/-! ### A completed request of the handler -/

/-- What holds when the request the handler presented is made and it has not yet gone on: RX_FULL is armed during the
drain, and disarmed once its disable is made. -/
structure State.HdlDone (s : State) : Prop where
  seqInv : s.SeqInv
  discipline : s.cfg.discipline = .interrupt
  drainPlace : s.hdl.drains = true → s.seq.rxMayBeArmed = true
  doRxArmed : s.hdl.transmits = true → s.hDoRx = true → s.armRx = true
  draining : s.hdl = .rxReceive → s.hk < s.fLength ∧ Memory.filled s.fBytes s.hk ∧ s.armRx = true
  drained : s.hdl = .rxDisable ∨ s.hdl = .rxClear → Memory.filled s.fBytes s.fLength ∧ s.armRx = false

/-- A request of the handler arms nothing, and disarms RX_FULL at one place. -/
theorem armAfter_hdlRequest {s : State} {p : HdlPos} {i : Instr} (hi : hdlRequest s p = some i) (b : Bool) :
    armAfter i .rxFull b = if p = .rxDisable then false else b := by
  cases p <;> simp only [hdlRequest, reduceCtorEq, Option.some.injEq] at hi <;> subst hi <;> simp [armAfter]

/-- Making the request of the handler's place leads from the invariant to `HdlDone`. -/
theorem State.Inv.hdlDone {s u : State} {i : Instr} (h : s.Inv) (hh : s.hdl ≠ .idle)
    (hi : hdlRequest s s.hdl = some i) (port : i.isHostOp = false) (he : exec i s = .next u) (made : PortMade i s u) :
    u.HdlDone := by
  have seqInv := h.seqInv
  have hdlAt := h.hdlAt
  have armRx : u.armRx = if s.hdl = .rxDisable then false else s.armRx := by
    rw [made.armRx, armAfter_hdlRequest hi]
  have falls : u.armRx = true → s.armRx = true := by
    rw [armRx]
    split <;> simp
  have noDelay (n : Nat) : i ≠ .dWaitTicks n := by
    rintro rfl
    cases hp : s.hdl <;> simp [hp, hdlRequest] at hi
  exact {
    seqInv := {
      sound := made.sound seqInv.sound fun _ src => by rintro rfl; exact hdlRequest_enable s s.hdl src hi
      seqAt := made.seq ▸ made.seqAt seqInv.seqAt fun _ => falls
      presented := by
        rw [made.sreq, made.seq, seqInv.presented, seqRequest_congr made.cfg made.fLength made.dSettle made.idx
          made.dHascode made.dCode]
      rxArmed := fun armed => made.seq ▸ seqInv.rxArmed (falls armed)
      delayPlace := fun busy => made.seq ▸ (exec_delayBusy port he busy).elim seqInv.delayPlace
        fun ⟨n, e⟩ => absurd e (noDelay n) }
    discipline := made.cfg ▸ hdlAt.discipline hh
    drainPlace := by simpa only [made.hdl, made.seq] using hdlAt.drainPlace
    doRxArmed := by
      intro transmits serve
      rw [made.hdl] at transmits
      rw [made.hDoRx] at serve
      have noDisable : s.hdl ≠ .rxDisable := by
        intro e
        simp [e, HdlPos.transmits] at transmits
      simpa [armRx, noDisable] using hdlAt.doRxArmed transmits serve
    draining := by
      intro receives
      rw [made.hdl] at receives
      obtain ⟨more, filled⟩ := hdlAt.draining receives
      rw [made.hk, made.fLength, made.fBytes, armRx]
      exact ⟨more, filled, by simpa [receives] using hdlAt.drainArmed (.inl receives)⟩
    drained := by
      intro ends
      rw [made.hdl] at ends
      rw [made.fLength, made.fBytes, armRx]
      refine ⟨hdlAt.drained ends, ?_⟩
      rcases ends with e | e
      · simp [e]
      · simpa [e] using hdlAt.disarmed e }

/-- Storing a byte of the drain leaves the sequencer's part of the invariant (R163). -/
theorem State.SeqInv.write {s : State} (h : s.SeqInv) {a : Nat} (ha : a < s.cfg.frameCap) (v : Byte) :
    { s with fBytes := Memory.write s.fBytes a v }.SeqInv :=
  { h with
    sound := h.sound.write ha v
    presented := h.presented
    seqAt := { h.seqAt with
      polled := fun e => ⟨(h.seqAt.polled e).1, Memory.filled_write _ _ _ _ (h.seqAt.polled e).2⟩
      complete := fun e => Memory.filled_write _ _ _ _ (h.seqAt.complete e)
      announced := fun e r => ⟨Memory.filled_write _ _ _ _ (h.seqAt.announced e r).1, (h.seqAt.announced e r).2⟩ } }

/-- The drain stores byte k and goes on (R163). -/
theorem State.SeqInv.hdlStore_inv {s : State} (h : s.SeqInv) (armed : s.armRx = true) (hk : s.hk < s.fLength)
    (filled : Memory.filled s.fBytes s.hk) : AnswersInv (hdlStore s) := by
  have inside : s.hk < s.cfg.frameCap := by
    rcases h.sound.length with zero | ⟨-, -, le⟩ <;> omega
  have written := (memWrite_next s _ s.hk s.tqRd).2 ⟨inside, rfl⟩
  rw [hdlStore, written, andThen_value]
  exact answersInv_next (((h.write inside s.tqRd).writeVariables (s.hk + 1) s.hDoRx).drainNext_inv armed hk
    (Memory.filled_write_next _ _ _ filled))

/-- The frame is announced once it is complete and RX_FULL is disarmed, in the wait or the timeout sequence (R163). -/
theorem State.SeqInv.announce {s : State} (h : s.SeqInv) (discipline : s.cfg.discipline = .interrupt)
    (place : s.seq.rxMayBeArmed = true) (complete : Memory.filled s.fBytes s.fLength) (disarmed : s.armRx = false) :
    { s with ready := true }.SeqInv := by
  have notEnabling : ¬ (s.seq = .enableTx ∨ s.seq = .enableRx) := by
    rintro (e | e) <;> simp [e, SeqPos.rxMayBeArmed] at place
  exact { h with
    sound := { h.sound with quiet := by simp [discipline] }
    presented := h.presented
    seqAt := { h.seqAt with
      announced := fun _ _ => ⟨complete, disarmed⟩
      cleared := fun e => absurd e notEnabling } }

/-- Every completed request of the handler leads on to a state with the invariant. -/
theorem State.HdlDone.hdlResume_inv {s : State} (h : s.HdlDone) (hh : s.hdl ≠ .idle) : AnswersInv (hdlResume s) := by
  have seqInv := h.seqInv
  have discipline := h.discipline
  have doRx := h.doRxArmed
  unfold hdlResume
  cases hp : s.hdl <;> simp only [hp] at doRx ⊢
  case idle => exact absurd hp hh
  case status => exact answersInv_next (seqInv.hdlServe_inv discipline)
  case txClear => exact answersInv_next (seqInv.hdlAfterTx_inv discipline (doRx rfl))
  case rxReceive =>
    obtain ⟨more, filled, armed⟩ := h.draining hp
    exact seqInv.hdlStore_inv armed more filled
  case rxDisable =>
    obtain ⟨complete, disarmed⟩ := h.drained (.inl hp)
    have place := h.drainPlace (by simp [hp, HdlPos.drains])
    refine answersInv_next (seqInv.hdlGoTo_inv ?_)
    constructor <;> simp [HdlPos.transmits, discipline, place, complete, disarmed]
  case rxClear =>
    obtain ⟨complete, disarmed⟩ := h.drained (.inr hp)
    have place := h.drainPlace (by simp [hp, HdlPos.drains])
    exact answersInv_next ((seqInv.announce discipline place complete disarmed).leaveHandler_inv discipline)
  all_goals
    refine answersInv_next (seqInv.hdlGoTo_inv ?_)
    constructor
    case doRxArmed => exact fun _ => doRx rfl
    all_goals simp [HdlPos.drains, discipline]

end Sys2Proof.Machine
end

/-! Proofs of O57, O58, O59 and O60: the invariant holds at reset, and from a state with it every step answers a state
with it. -/
section
namespace Sys2Proof.Machine

/-! ### Reset -/

/-- Settles O57: each value is the one `State.resetOf` writes. -/
theorem resetStateValues : Obligations.ResetStateValues := by
  unfold Obligations.ResetStateValues
  exact ⟨rfl, rfl, rfl, rfl, rfl, rfl, rfl, rfl, rfl, rfl, rfl, rfl, rfl, rfl⟩

theorem inv_resetOf (cfg : Config) : (State.resetOf cfg).Inv := by
  have sound : (State.resetOf cfg).Sound := by constructor <;> simp [State.resetOf]
  have rests : (State.resetOf cfg).HdlRests := ⟨rfl, rfl, rfl⟩
  exact restsInv sound rests rfl nofun rfl rfl

/-- Settles O58. -/
theorem invariantAtReset : Obligations.InvariantAtReset := by
  unfold Obligations.InvariantAtReset
  exact ⟨inv_resetOf Config.build, inv_resetOf⟩

/-! ### The environment's moves -/

theorem State.Inv.afterTurn {s : State} (h : s.Inv) : s.afterTurn.Inv := by
  unfold State.afterTurn
  split <;> exact { h with presented := h.presented, hdlPresented := h.hdlPresented }

theorem State.Inv.acceptCommand {s : State} (h : s.Inv) : s.acceptCommand.Inv :=
  { h with presented := h.presented, hdlPresented := h.hdlPresented }

theorem State.Inv.presentCommand {s : State} (h : s.Inv) (w : Word16) : (s.presentCommand w).Inv :=
  { h with presented := h.presented, hdlPresented := h.hdlPresented }

theorem State.Inv.delayDone {s : State} (h : s.Inv) : s.delayDone.Inv :=
  { h with presented := h.presented, hdlPresented := h.hdlPresented, delayPlace := nofun }

theorem inv_resetBlock (s : State) : s.resetBlock.Inv :=
  { inv_resetOf s.cfg with presented := rfl, hdlPresented := rfl }

/-- A delivery enters the handler, or is remembered during a run (R160, R164). -/
theorem State.Inv.deliver {s : State} (h : s.Inv) : s.deliver.Inv := by
  unfold State.deliver
  split
  case isFalse => exact h
  case isTrue deliverable =>
    have discipline : s.cfg.discipline = .interrupt := by
      simp only [State.canDeliver, Bool.and_eq_true, decide_eq_true_eq] at deliverable
      exact deliverable.2
    split
    · exact h.seqInv.enterHandler_inv discipline
    case isFalse running =>
      exact inv_iff.2 ⟨h.seqInv.writePending discipline true,
        { h.hdlAt with pendingInRun := fun _ => running }, h.hdlPresented⟩

/-! ### The branches of SETUP, CAPTURE and RDFRAME -/

theorem execSetup_wellFormed (s : State) (ok : cfgOk s.cfg = true) : execSetup s = .next (s.goTo .configure) := by
  simp [execSetup, ok]

theorem execSetup_illFormed (s : State) (ill : ¬ cfgOk s.cfg = true) :
    execSetup s = .next (s.raise .configurationError) := by simp [execSetup, ill]

theorem execCapture_found (s : State) {a : Byte} {d : Descriptor} (configured : s.configured = true)
    (found : descriptorOf s.cfg a = some d) :
    execCapture a s = .next ((s.loadDescriptor a d).goTo .setWordCount) := by simp [execCapture, configured, found]

theorem execCapture_unknown (s : State) {a : Byte} (configured : s.configured = true)
    (unknown : descriptorOf s.cfg a = none) : execCapture a s = .next (s.raise .malformedRequest) := by
  simp [execCapture, configured, unknown]

theorem execCapture_unconfigured (s : State) {a : Byte} (unconfigured : ¬ s.configured = true) :
    execCapture a s = .next (s.raise .configurationError) := by simp [execCapture, unconfigured]

theorem execRdframe_above (s : State) {a : Byte} (above : s.fLength ≤ a.toNat) :
    execRdframe a s = .next (s.raise .malformedRequest) := by simp [execRdframe, above]

theorem execRdframe_below (s : State) {a : Byte} (below : ¬ s.fLength ≤ a.toNat) :
    execRdframe a s = andThen (memRead s a.toNat) fun b => .next (s.respond .ok b) := by simp [execRdframe, below]

/-! ### A host operation of a block at rest -/

/-- The block at rest: RX_FULL is disarmed and every byte below F.length is in the buffer. -/
theorem State.Inv.atRest {s : State} (h : s.Inv) (hs : s.seq = .rest) :
    s.armRx = false ∧ Memory.filled s.fBytes s.fLength ∧ s.delayBusy = false := by
  refine ⟨?_, h.complete (by simp [hs, SeqPos.frameComplete]), ?_⟩
  · simpa [hs, SeqPos.rxMayBeArmed] using h.rxArmed
  · simpa [hs] using h.delayPlace

theorem State.Inv.execSetup_inv {s : State} (h : s.Inv) (hh : s.hdl = .idle) (hs : s.seq = .rest) :
    AnswersInv (execSetup s) := by
  obtain ⟨disarmed, filled, noDelay⟩ := h.atRest hs
  by_cases ok : cfgOk s.cfg = true
  case neg =>
    rw [execSetup_illFormed s ok]
    exact answersInv_next (h.raise _)
  case pos =>
    rw [execSetup_wellFormed s ok]
    have seqAt : s.SeqAt .configure := by
      constructor <;>
        simp [pstateAt, SeqPos.inCapture, SeqPos.polls, SeqPos.interruptOnly, ok, filled, h.phase, hs]
    have stand : s.CanStand .configure :=
      ⟨h.seqInv.sound, h.hdlRests hh, seqAt, by simp [disarmed], by simp [noDelay]⟩
    exact answersInv_next stand.goTo_inv

theorem State.Inv.execCapture_inv {s : State} (h : s.Inv) (hh : s.hdl = .idle) (hs : s.seq = .rest) (a : Byte) :
    AnswersInv (execCapture a s) := by
  obtain ⟨disarmed, -, noDelay⟩ := h.atRest hs
  by_cases configured : s.configured = true
  case neg =>
    rw [execCapture_unconfigured s configured]
    exact answersInv_next (h.raise _)
  case pos =>
    cases found : descriptorOf s.cfg a with
    | none =>
      rw [execCapture_unknown s configured found]
      exact answersInv_next (h.raise _)
    | some d =>
      rw [execCapture_found s configured found]
      have ok := h.configuredOk configured
      obtain ⟨long, inside, delay⟩ := cfgOk_descriptor ok found
      have sound : (s.loadDescriptor a d).Sound := { h.seqInv.sound with length := .inr ⟨ok, long, inside⟩ }
      have seqAt : (s.loadDescriptor a d).SeqAt .setWordCount := by
        constructor <;> simp [pstateAt, SeqPos.polls, SeqPos.interruptOnly, SeqPos.frameComplete, h.phase, hs,
          configured, long, delay]
      have stand : (s.loadDescriptor a d).CanStand .setWordCount :=
        ⟨sound, { h.hdlRests hh with }, seqAt, by simp [disarmed], by simp [noDelay]⟩
      exact answersInv_next stand.goTo_inv

/-- A readable frame byte is inside the buffer and holds a value (R86). -/
theorem State.Inv.execRdframe_inv {s : State} (h : s.Inv) (hs : s.seq = .rest) (a : Byte) :
    AnswersInv (execRdframe a s) := by
  obtain ⟨-, filled, -⟩ := h.atRest hs
  by_cases above : s.fLength ≤ a.toNat
  case pos =>
    rw [execRdframe_above s above]
    exact answersInv_next (h.raise _)
  case neg =>
    have inside : a.toNat < s.cfg.frameCap := by
      rcases h.length with zero | ⟨-, -, le⟩ <;> omega
    obtain ⟨b, hb⟩ := Option.isSome_iff_exists.1 (filled a.toNat (by omega))
    rw [execRdframe_below s above, (memRead_next s a.toNat b).2 ⟨inside, hb⟩, andThen_value]
    exact answersInv_next (h.respond _ _)

/-- Every host operation of a block at rest answers a state with the invariant. -/
theorem State.Inv.exec_host_inv {s : State} (h : s.Inv) (hh : s.hdl = .idle) (hs : s.seq = .rest) {i : Instr}
    (hi : i.isHostOp = true) : AnswersInv (exec i s) := by
  cases i <;> simp only [Instr.isHostOp, Bool.false_eq_true] at hi
  case setup => exact h.execSetup_inv hh hs
  case capture a => exact h.execCapture_inv hh hs a
  case rdframe a => exact h.execRdframe_inv hs a
  case clrerr =>
    have cleared : { s with errorFlag := .ok }.Inv :=
      { h with presented := h.presented, hdlPresented := h.hdlPresented }
    exact answersInv_next (cleared.respond _ _)
  all_goals exact answersInv_next (h.respond _ _)

/-! ### The processor's turn -/

/-- The sequencer's turn at a place with a request: the request is made and the sequencer goes on. -/
theorem State.Inv.runTurn_seqRequest {s : State} (h : s.Inv) (hh : s.hdl = .idle) (hb : s.delayBusy = false)
    {i : Instr} (hi : seqRequest s s.seq = some i) : AnswersInv (runTurn s) := by
  obtain ⟨r, hr⟩ := requestOf_seqRequest hi
  have decoded := decodeRequest_requestOf hr
  have presented : s.sreq = some r := by simp [h.presented, hi, hr]
  obtain ⟨u, made, port⟩ := exec_port_law i r decoded s
  have done := h.seqDone hh hb hi (decodeRequest_portOp r i decoded) made port
  have place : seqRequest u u.seq = some i := by
    rw [port.seq, ← hi]
    exact seqRequest_congr port.cfg port.fLength port.dSettle port.idx port.dHascode port.dCode _
  rw [runTurn_request s i (fetch_sequencer_request s r i hh hb presented decoded), made, andThen_value,
    resume_sequencer u (port.hdl.trans hh)]
  exact done.seqResume_inv place

/-- The handler's turn: its request is made and it goes on. -/
theorem State.Inv.runTurn_hdlRequest {s : State} (h : s.Inv) (hh : s.hdl ≠ .idle) : AnswersInv (runTurn s) := by
  obtain ⟨i, hi⟩ : ∃ i, hdlRequest s s.hdl = some i := by
    cases hp : s.hdl <;> simp [hp, hdlRequest] at hh ⊢
  obtain ⟨r, hr⟩ := requestOf_hdlRequest hi
  have decoded := decodeRequest_requestOf hr
  have presented : s.hreq = some r := by simp [h.hdlPresented, hi, hr]
  obtain ⟨u, made, port⟩ := exec_port_law i r decoded s
  have running : u.hdl ≠ .idle := by rwa [port.hdl]
  rw [runTurn_request s i (fetch_handler_request s r i hh presented decoded), made, andThen_value,
    resume_handler u running]
  exact (h.hdlDone hh hi (decodeRequest_portOp r i decoded) made port).hdlResume_inv running

/-- The turn of a block at rest: a command word is accepted, if one is presented (R80, R55). -/
theorem State.Inv.runTurn_rest {s : State} (h : s.Inv) (hh : s.hdl = .idle) (hs : s.seq = .rest) :
    AnswersInv (runTurn s) := by
  obtain ⟨-, -, hb⟩ := h.atRest hs
  have hr : s.sreq = none := by simp [h.presented, hs, seqRequest]
  have hp : s.pstate = .idle := by simp [h.phase, hs, pstateAt]
  cases hc : s.cmds with
  | nil =>
    have nothing : fetch s = .waiting := by simp [fetch, fetchSequencer, fetchCommand, hh, hb, hr, hs, hp, hc]
    rw [runTurn_waiting s nothing]
    exact answersInv_next h
  | cons w ws =>
    have fetched := fetch_command_word s w ws hh hb hr hs hp hc
    cases hd : decodeHost w with
    | ok i =>
      rw [hd] at fetched
      rw [runTurn_command s i fetched]
      exact h.acceptCommand.exec_host_inv hh hs (decodeHost_hostOp w i hd)
    | error e =>
      rw [hd] at fetched
      rw [runTurn_illegal s e fetched]
      exact answersInv_next (h.acceptCommand.raise _)

/-- From a state with the invariant the processor's turn answers a state with it. -/
theorem State.Inv.runTurn_inv {s : State} (h : s.Inv) : AnswersInv (runTurn s) := by
  by_cases hh : s.hdl = .idle
  case neg => exact h.runTurn_hdlRequest hh
  case pos =>
    cases hb : s.delayBusy with
    | true =>
      rw [runTurn_waiting s (fetch_delay s hh hb)]
      exact answersInv_next h
    | false =>
      by_cases hs : s.seq = .rest
      case pos => exact h.runTurn_rest hh hs
      case neg =>
        cases hi : seqRequest s s.seq with
        | some i => exact h.runTurn_seqRequest hh hb hi
        | none =>
          have hr : s.sreq = none := by simp [h.presented, hi]
          rw [runTurn_action s (fetch_action s hh hb hr hs), action_sequencer s hh]
          exact h.seqAction_inv hh hb hi

/-- From a state with the invariant every step, whoever moves, answers a state with it. -/
theorem State.Inv.step_inv {s : State} (h : s.Inv) : AnswersInv (step s) := by
  have taken := h.afterTurn
  cases turn : s.turn with
  | run => rw [step_run s turn]; exact taken.runTurn_inv
  | interrupt => rw [step_interrupt s turn]; exact answersInv_next taken.deliver
  | delayDone => rw [step_delayDone s turn]; exact answersInv_next taken.delayDone
  | present w => rw [step_present s w turn]; exact answersInv_next (taken.presentCommand w)
  | reset => rw [step_reset s turn]; exact answersInv_next (inv_resetBlock _)

/-- Settles O59: the one next state a step answers has the invariant. -/
theorem stepKeepsInvariant : Obligations.StepKeepsInvariant := by
  unfold Obligations.StepKeepsInvariant
  intro s t h stepped
  obtain ⟨u, answered, inv⟩ := h.step_inv
  rw [answered, Host.Outcome.next.injEq] at stepped
  exact stepped ▸ inv

/-- Settles O60, by `State.Inv.step_inv`. -/
theorem stepAnswersNext : Obligations.StepAnswersNext := by
  unfold Obligations.StepAnswersNext
  intro s h
  obtain ⟨t, answered, -⟩ := h.step_inv
  exact ⟨t, answered⟩

end Sys2Proof.Machine
end

/-! Who writes which register: one statement of what a step that is no reset can write, drawn once from the laws of its
parts. -/
section
namespace Sys2Proof.Machine

/-- Nothing the block's rights speak of is written: the registers, the build and the history stand. -/
structure Untouched (s t : State) : Prop where
  cfg : t.cfg = s.cfg
  fBytes : t.fBytes = s.fBytes
  fLength : t.fLength = s.fLength
  receivedCRC : t.receivedCRC = s.receivedCRC
  computedCRC : t.computedCRC = s.computedCRC
  pstate : t.pstate = s.pstate
  idx : t.idx = s.idx
  errorFlag : t.errorFlag = s.errorFlag
  ready : t.ready = s.ready
  configured : t.configured = s.configured
  dCid : t.dCid = s.dCid
  dHascode : t.dHascode = s.dHascode
  dCode : t.dCode = s.dCode
  dSettle : t.dSettle = s.dSettle
  armTx : t.armTx = s.armTx
  armRx : t.armRx = s.armRx
  wcnt : t.wcnt = s.wcnt
  trace : t.trace = s.trace

/-- The request `i` stands on the port of the context that has the processor. -/
def Presents (s : State) (i : Instr) : Prop :=
  ∃ r, decodeRequest r = .ok i ∧ (s.hdl = .idle ∧ s.sreq = some r ∨ s.hdl ≠ .idle ∧ s.hreq = some r)

/-- The place at which `pstate` is written, and the value written there (R101 to R113). -/
def writesPstate : SeqPos → Option PState
  | .enable => some .configured
  | .settle => some .csAsserted
  | .opening => some .transferring
  | .disable => some .csDeasserted
  | .validate => some .validated
  | .respond => some .idle
  | .toDisable => some .idle
  | _ => none

/-- The step accepts a CAPTURE (R84). -/
def AcceptsCapture (s : State) : Prop :=
  s.hdl = .idle ∧ s.seq = .rest ∧ ∃ a, fetch s.afterTurn = .command (.capture a)

/-- The last step of the timeout sequence: the frame is made unreadable and TIMEOUT delivered (R113). -/
def EndsTimeout (s t : State) : Prop :=
  s.hdl = .idle ∧ s.seq = .toDisable ∧ t.responses = s.responses ++ [0x3000#16]

/-- Everything a step that is no reset can write, and where it writes it. -/
structure StepWrites (s t : State) : Prop where
  cfg : t.cfg = s.cfg
  fBytes : t.fBytes = s.fBytes ∨ (s.hdl = .idle ∧ s.seq = .receive) ∨ s.hdl = .rxReceive
  descriptor : (t.dCid = s.dCid ∧ t.dHascode = s.dHascode ∧ t.dCode = s.dCode ∧ t.dSettle = s.dSettle) ∨
    AcceptsCapture s
  fLength : t.fLength = s.fLength ∨ AcceptsCapture s ∨ (EndsTimeout s t ∧ t.fLength = 0)
  diagnostics : (t.receivedCRC = s.receivedCRC ∧ t.computedCRC = s.computedCRC) ∨ (s.hdl = .idle ∧ s.seq = .validate)
  errorFlag : t.errorFlag = s.errorFlag ∨
    (t.errorFlag = .ok ∧ s.turn = .run ∧ s.hdl = .idle ∧ s.seq = .rest ∧ fetch s.afterTurn = .command .clrerr) ∨
    (t.errorFlag = stickyAfter s.errorFlag (verdictOf t.receivedCRC t.computedCRC) ∧
      s.turn = .run ∧ s.hdl = .idle ∧ s.seq = .validate)
  configured : t.configured = s.configured ∨ (t.configured = true ∧ s.hdl = .idle ∧ s.seq = .configure)
  pstate : t.pstate = s.pstate ∨
    (s.hdl = .idle ∧ writesPstate s.seq = some t.pstate ∧ (s.seq = .toDisable → EndsTimeout s t))
  idx : t.idx = s.idx ∨ s.hdl = .idle
  wcnt : t.wcnt = s.wcnt ∨ s.hdl = .idle
  ready : t.ready = s.ready ∨ (t.ready = true ∧ s.hdl = .rxClear) ∨
    (t.ready = false ∧ s.hdl = .idle ∧ s.seq = .opening ∧ s.cfg.discipline = .interrupt)
  requests : (t.trace = s.trace ∧ ∀ src, t.armed src = s.armed src) ∨
    ∃ i, Presents s i ∧ (∃ c rep, t.trace = s.trace ++ [⟨c, i, rep⟩]) ∧
      ∀ src, t.armed src = armAfter i src (s.armed src)

/-! ### The parts of a step -/

/-- The arm bits stand where neither is written. -/
theorem armed_eq {s t : State} (tx : t.armTx = s.armTx) (rx : t.armRx = s.armRx) (src : Source) :
    t.armed src = s.armed src := by
  cases src
  · exact tx
  · exact rx

/-- The arm bits follow the request made, where the context that goes on leaves them. -/
theorem PortMade.armed {i : Instr} {s u t : State} (made : PortMade i s u) (tx : t.armTx = u.armTx)
    (rx : t.armRx = u.armRx) (src : Source) : t.armed src = armAfter i src (s.armed src) := by
  cases src
  · exact tx.trans made.armTx
  · exact rx.trans made.armRx

theorem untouched_deliver (s : State) : Untouched s s.afterTurn.deliver := by
  unfold State.deliver State.enterHandler
  split
  · split <;> constructor <;> simp
  · constructor <;> simp

theorem Untouched.stepWrites {s t : State} (h : Untouched s t) : StepWrites s t where
  cfg := h.cfg
  fBytes := .inl h.fBytes
  descriptor := .inl ⟨h.dCid, h.dHascode, h.dCode, h.dSettle⟩
  fLength := .inl h.fLength
  diagnostics := .inl ⟨h.receivedCRC, h.computedCRC⟩
  errorFlag := .inl h.errorFlag
  configured := .inl h.configured
  pstate := .inl h.pstate
  idx := .inl h.idx
  wcnt := .inl h.wcnt
  ready := .inl h.ready
  requests := .inl ⟨h.trace, armed_eq h.armTx h.armRx⟩

/-- What the acceptance of a host operation writes. -/
theorem HostActed.stepWrites {i : Instr} {s t : State} (acted : HostActed i s.afterTurn.acceptCommand t)
    (turn : s.turn = .run) (fetched : fetch s.afterTurn = .command i) (hh : s.hdl = .idle) (hs : s.seq = .rest) :
    StepWrites s t where
  cfg := by simpa using acted.cfg
  fBytes := by simp [acted.fBytes]
  descriptor := by
    rcases acted.descriptor with ⟨cid, hascode, code, settle, -⟩ | ⟨a, rfl⟩
    · exact .inl (by simp [cid, hascode, code, settle])
    · exact .inr ⟨hh, hs, a, fetched⟩
  fLength := by
    rcases acted.descriptor with ⟨-, -, -, -, length⟩ | ⟨a, rfl⟩
    · exact .inl (by simpa using length)
    · exact .inr (.inl ⟨hh, hs, a, fetched⟩)
  diagnostics := .inl (by simp [acted.receivedCRC, acted.computedCRC])
  errorFlag := by
    rcases acted.errorFlag with stays | ⟨rfl, cleared⟩
    · exact .inl (by simpa using stays)
    · exact .inr (.inl ⟨cleared, turn, hh, hs, fetched⟩)
  configured := .inl (by simpa using acted.configured)
  pstate := .inl (by simpa using acted.pstate)
  idx := .inr hh
  wcnt := .inr hh
  ready := .inl (by simpa using acted.ready)
  requests := .inl ⟨by simpa using acted.trace,
    armed_eq (by simpa using acted.armTx) (by simpa using acted.armRx)⟩

/-- What a request of the sequencer writes, with what it goes on to. -/
theorem SeqResumed.stepWrites {i : Instr} {s u t : State} (done : SeqResumed u t) (made : PortMade i s.afterTurn u)
    (hh : s.hdl = .idle) (presents : Presents s i) : StepWrites s t where
  cfg := by simpa [made.cfg] using done.cfg
  fBytes := by simpa [made.fBytes, made.seq, hh] using done.fBytes
  descriptor := .inl (by
    simp [done.dCid, done.dHascode, done.dCode, done.dSettle, made.dCid, made.dHascode, made.dCode, made.dSettle])
  fLength := by
    rcases done.fLength with stays | ⟨place, zero, answer⟩
    · exact .inl (by simpa [made.fLength] using stays)
    · exact .inr (.inr ⟨⟨hh, by simpa [made.seq] using place, by simpa [made.responses] using answer⟩, zero⟩)
  diagnostics := .inl (by simp [done.receivedCRC, done.computedCRC, made.receivedCRC, made.computedCRC])
  errorFlag := .inl (by simpa [made.errorFlag] using done.errorFlag)
  configured := by simpa [made.configured, made.seq, hh] using done.configured
  pstate := by
    have place : u.seq = s.seq := by simpa using made.seq
    have responses : u.responses = s.responses := by simpa using made.responses
    rcases done.pstate with stays | ⟨writer, value⟩ | ⟨writer, value⟩ | ⟨writer, value, answer⟩
    · exact .inl (by simpa [made.pstate] using stays)
    · exact .inr (by simp [← place, writer, value, hh, writesPstate])
    · exact .inr (by simp [← place, writer, value, hh, writesPstate])
    · exact .inr (by simp [EndsTimeout, ← place, writer, value, hh, writesPstate, answer, responses])
  idx := .inr hh
  wcnt := .inr hh
  ready := .inl (by simpa [made.ready] using done.ready)
  requests := by
    obtain ⟨rep, trace⟩ := made.trace
    exact .inr ⟨i, presents, ⟨_, rep, by simpa [trace] using done.trace⟩,
      fun src => by simpa [State.armed] using made.armed done.armTx done.armRx src⟩

/-- What a request of the handler writes, with what it goes on to. -/
theorem HdlResumed.stepWrites {i : Instr} {s u t : State} (done : HdlResumed u t) (made : PortMade i s.afterTurn u)
    (presents : Presents s i) : StepWrites s t where
  cfg := by simpa [made.cfg] using done.cfg
  fBytes := by
    rcases done.fBytes with stays | place
    · exact .inl (by simpa [made.fBytes] using stays)
    · exact .inr (.inr (by simpa [made.hdl] using place))
  descriptor := .inl (by
    simp [done.dCid, done.dHascode, done.dCode, done.dSettle, made.dCid, made.dHascode, made.dCode, made.dSettle])
  fLength := .inl (by simpa [made.fLength] using done.fLength)
  diagnostics := .inl (by simp [done.receivedCRC, done.computedCRC, made.receivedCRC, made.computedCRC])
  errorFlag := .inl (by simpa [made.errorFlag] using done.errorFlag)
  configured := .inl (by simpa [made.configured] using done.configured)
  pstate := .inl (by simpa [made.pstate] using done.pstate)
  idx := .inl (by simpa [made.idx] using done.idx)
  wcnt := .inl (by simpa [made.wcnt] using done.wcnt)
  ready := by
    rcases done.ready with stays | ⟨set, place⟩
    · exact .inl (by simpa [made.ready] using stays)
    · exact .inr (.inl ⟨set, by simpa [made.hdl] using place⟩)
  requests := by
    obtain ⟨rep, trace⟩ := made.trace
    exact .inr ⟨i, presents, ⟨_, rep, by simpa [trace] using done.trace⟩,
      fun src => by simpa [State.armed] using made.armed done.armTx done.armRx src⟩

/-- What an action of the sequencer between two requests writes. -/
theorem SeqActed.stepWrites {s t : State} (acted : SeqActed s.afterTurn t) (turn : s.turn = .run)
    (hh : s.hdl = .idle) : StepWrites s t where
  cfg := by simpa using acted.cfg
  fBytes := .inl (by simpa using acted.fBytes)
  descriptor := .inl (by simp [acted.dCid, acted.dHascode, acted.dCode, acted.dSettle])
  fLength := .inl (by simpa using acted.fLength)
  diagnostics := by
    rcases acted.receivedCRC with ⟨received, computed, -⟩ | ⟨place, -⟩
    · exact .inl (by simp [received, computed])
    · exact .inr ⟨hh, by simpa using place⟩
  errorFlag := by
    rcases acted.receivedCRC with ⟨-, -, stays⟩ | ⟨place, law⟩
    · exact .inl (by simpa using stays)
    · exact .inr (.inr ⟨by simpa using law, turn, hh, by simpa using place⟩)
  configured := .inl (by simpa using acted.configured)
  pstate := by
    have pstate := acted.pstate
    simp only [State.afterTurn_pstate, State.afterTurn_seq] at pstate
    rcases pstate with stays | ⟨writer, value⟩ | ⟨writer, value⟩ | ⟨writer, value⟩ | ⟨writer, value⟩
    · exact .inl stays
    all_goals exact .inr (by simp [writer, value, hh, writesPstate])
  idx := .inr hh
  wcnt := .inr hh
  ready := by
    rcases acted.ready with stays | ⟨cleared, place, discipline⟩
    · exact .inl (by simpa using stays)
    · exact .inr (.inr ⟨cleared, hh, by simpa using place, by simpa using discipline⟩)
  requests := .inl ⟨by simpa using acted.trace, armed_eq (by simpa using acted.armTx) (by simpa using acted.armRx)⟩

/-- What a step that is no reset writes. -/
theorem step_writes {s t : State} (h : step s = .next t) (noReset : s.turn ≠ .reset) : StepWrites s t := by
  cases step_cases s t h with
  | interrupt _ e => exact e ▸ (untouched_deliver s).stepWrites
  | delayDone _ e =>
    have same : Untouched s s.afterTurn.delayDone := by constructor <;> simp [State.delayDone]
    exact e ▸ same.stepWrites
  | present w _ e =>
    have same : Untouched s (s.afterTurn.presentCommand w) := by constructor <;> simp [State.presentCommand]
    exact e ▸ same.stepWrites
  | reset turn _ => exact absurd turn noReset
  | command turn i fetched host hh hs _ e =>
    exact (exec_host_law i host _ t e).stepWrites turn fetched hh hs
  | illegal _ _ _ _ _ _ e =>
    have same : Untouched s s.afterTurn.acceptCommand.rejectCommand := by
      constructor <;> simp [State.rejectCommand]
    exact e ▸ same.stepWrites
  | sequencerRequest _ i r u hh _ presented decoded _ made e =>
    exact (seqResume_law u t e).stepWrites made hh ⟨r, decoded, .inl ⟨hh, presented⟩⟩
  | handlerRequest _ i r u hh presented decoded _ made e =>
    exact (hdlResume_law u t e).stepWrites made ⟨r, decoded, .inr ⟨hh, presented⟩⟩
  | sequencerAction turn hh _ _ hs e =>
    exact (seqAction_law _ t (by simpa using hs) e).stepWrites turn hh
  | handlerAction _ _ _ e =>
    have same : Untouched s (s.afterTurn.hdlGoTo s.hdl) := by constructor <;> simp
    exact e ▸ same.stepWrites
  | waiting _ _ _ _ e =>
    have same : Untouched s s.afterTurn := by constructor <;> simp
    exact e ▸ same.stepWrites

end Sys2Proof.Machine
end

/-! Proofs of O19, O21, O49, O50, O51 and O52 from what a step writes; O15 from what the host operations and validation
read. -/
section
namespace Sys2Proof.Machine

/-- Settles O19: each meaning is these two updates of the record. -/
theorem enableAndDisableWriteArmBit : Obligations.EnableAndDisableWriteArmBit := by
  unfold Obligations.EnableAndDisableWriteArmBit
  rintro s c rfl
  exact ⟨rfl, rfl, rfl, rfl⟩

/-! ### The arm bits -/

/-- One more request in the history acts on what the history says of a source as on its arm bit. -/
theorem armedBy_append (src : Source) (trace : List PortEvent) (e : PortEvent) :
    armedBy src (trace ++ [e]) = armAfter e.op src (armedBy src trace) := by
  simp [armedBy, armAfter, List.foldl_append]

/-- Settles O21: a step leaves history and arm bits, or one request acts on both alike. -/
theorem armBitsMirrorHistory : Obligations.ArmBitsMirrorHistory := by
  unfold Obligations.ArmBitsMirrorHistory
  intro s t noReset stepped tx rx
  have mirror (src : Source) : s.armed src = armedBy src s.trace := by
    cases src
    · exact tx
    · exact rx
  have kept (src : Source) : t.armed src = armedBy src t.trace := by
    rcases (step_writes stepped noReset).requests with ⟨trace, arms⟩ | ⟨i, -, ⟨c, rep, trace⟩, arms⟩
    · rw [arms, trace, mirror]
    · rw [arms, trace, armedBy_append, mirror]
  exact ⟨kept .txEmpty, kept .rxFull⟩

/-- An arm bit rises by the enable of its source alone. -/
theorem armAfter_rises {i : Instr} {src : Source} (h : armAfter i src false = true) : i = .tEnableInterrupt src := by
  by_contra other
  simp [armAfter, other] at h

/-- An arm bit falls by the disable of its source alone. -/
theorem armAfter_falls {i : Instr} {src : Source} (h : armAfter i src true = false) : i = .tDisableInterrupt src := by
  by_contra other
  simp [armAfter, other] at h

/-- In a state with the invariant the request presented is the one of the place of the context that moves. -/
theorem State.Inv.presents {s : State} (h : s.Inv) {i : Instr} (hi : Presents s i) :
    (s.hdl = .idle ∧ seqRequest s s.seq = some i) ∨ (s.hdl ≠ .idle ∧ hdlRequest s s.hdl = some i) := by
  obtain ⟨r, decoded, ⟨hh, presented⟩ | ⟨hh, presented⟩⟩ := hi
  · exact .inl ⟨hh, h.seqRequest_of_presented presented decoded⟩
  · exact .inr ⟨hh, h.hdlRequest_of_presented presented decoded⟩

/-- An arm bit that differs after a step was written by the request made. -/
theorem StepWrites.request_of_arm {s t : State} (w : StepWrites s t) {src : Source} (ne : t.armed src ≠ s.armed src) :
    ∃ i, Presents s i ∧ t.armed src = armAfter i src (s.armed src) := by
  rcases w.requests with ⟨-, arms⟩ | ⟨i, presents, -, arms⟩
  · exact absurd (arms src) ne
  · exact ⟨i, presents, arms src⟩

/-- The sequencer's place that enables a source (R108). -/
def enablePlace : Source → SeqPos
  | .txEmpty => .enableTx
  | .rxFull => .enableRx

/-- The place of the timeout sequence that disables a source (R113). -/
def timeoutDisablePlace : Source → SeqPos
  | .txEmpty => .toDisableTx
  | .rxFull => .toDisableRx

/-- The handler's place that disables a source (R162, R163). -/
def handlerDisablePlace : Source → HdlPos
  | .txEmpty => .txDisable
  | .rxFull => .rxDisable

/-- An arm bit is set only at the sequencer's enable of its source (R108). -/
theorem StepWrites.arm_rises {s t : State} (w : StepWrites s t) (h : s.Inv) (src : Source)
    (clear : s.armed src = false) (set : t.armed src = true) :
    s.hdl = .idle ∧ s.seq = enablePlace src := by
  have changed : t.armed src ≠ s.armed src := by simp [clear, set]
  obtain ⟨i, presents, arm⟩ := w.request_of_arm changed
  rw [clear, set] at arm
  obtain rfl := armAfter_rises arm.symm
  rcases h.presents presents with ⟨hh, hi⟩ | ⟨-, hi⟩
  · exact ⟨hh, by rw [seqRequest_enable s s.seq src hi]; cases src <;> rfl⟩
  · exact absurd hi (hdlRequest_enable s s.hdl src)

/-- An arm bit is cleared only at the handler's disable of its source, or at the sequencer's in the timeout sequence
(R113, R162, R163). -/
theorem StepWrites.arm_falls {s t : State} (w : StepWrites s t) (h : s.Inv) (src : Source)
    (set : s.armed src = true) (clear : t.armed src = false) :
    s.hdl = handlerDisablePlace src ∨ (s.hdl = .idle ∧ s.seq = timeoutDisablePlace src) := by
  have changed : t.armed src ≠ s.armed src := by simp [clear, set]
  obtain ⟨i, presents, arm⟩ := w.request_of_arm changed
  rw [clear, set] at arm
  obtain rfl := armAfter_falls arm.symm
  rcases h.presents presents with ⟨hh, hi⟩ | ⟨-, hi⟩
  · exact .inr ⟨hh, by rw [seqRequest_disable s s.seq src hi]; cases src <;> rfl⟩
  · exact .inl (by rw [hdlRequest_disable s s.hdl src hi]; cases src <;> rfl)

/-! ### The protocol graph -/

/-- Settles O49: `pstate` agrees with the place that writes it, and each such place is an edge. -/
theorem protocolGraph : Obligations.ProtocolGraph := by
  unfold Obligations.ProtocolGraph
  intro s t h noReset stepped changed
  rcases (step_writes stepped noReset).pstate with stays | ⟨-, value, timeout⟩
  · exact absurd stays changed
  · have phase := h.phase
    cases place : s.seq <;> simp only [place, writesPstate, pstateAt, Option.some.injEq, reduceCtorEq] at value phase
    case toDisable =>
      obtain ⟨-, -, answer⟩ := timeout place
      simp [phase, ← value, answer]
    all_goals simp [phase, ← value]

/-! ### The writers of the registers -/

/-- Settles O50: `stickyAfter` never clears the flag and sets it for a failed check alone. -/
theorem stickyFlagWriters : Obligations.StickyFlagWriters := by
  unfold Obligations.StickyFlagWriters
  refine ⟨rfl, rfl, fun s t stepped => ?_⟩
  by_cases reset : s.turn = .reset
  · have cleared : t.errorFlag = .ok := by
      rw [step_reset s reset, Host.Outcome.next.injEq] at stepped
      simp [← stepped, State.resetBlock, State.resetOf]
    exact ⟨fun _ _ => .inl reset, fun _ set => by simp [cleared] at set⟩
  rcases (step_writes stepped reset).errorFlag with stays | ⟨cleared, turn, -, -, clrerr⟩ | ⟨law, turn, hh, place⟩
  · constructor <;> intro old new <;> simp [stays, old] at new
  · exact ⟨fun _ _ => .inr ⟨turn, clrerr⟩, fun _ set => by simp [cleared] at set⟩
  · constructor
    · intro old new
      have sticks : stickyAfter .fail (verdictOf t.receivedCRC t.computedCRC) = .fail := by
        cases verdictOf t.receivedCRC t.computedCRC <;> rfl
      simp [law, old, sticks] at new
    · intro old new
      refine ⟨turn, hh, place, fun equal => ?_⟩
      simp [law, old, verdictOf, equal, stickyAfter] at new

/-- Settles O51: `StepWrites` register by register, and reset keeps the build. -/
theorem registerWriters : Obligations.RegisterWriters := by
  unfold Obligations.RegisterWriters
  intro s t stepped
  by_cases reset : s.turn = .reset
  · rw [step_reset s reset, Host.Outcome.next.injEq] at stepped
    exact ⟨by simp [← stepped, State.resetBlock, State.resetOf], fun noReset => absurd reset noReset⟩
  have w := step_writes stepped reset
  refine ⟨w.cfg, fun _ => ⟨?_, ?_, ?_, ?_⟩⟩
  · intro changed
    exact w.diagnostics.resolve_left (by tauto)
  · intro changed
    exact w.configured.resolve_left changed
  · intro changed
    obtain ⟨hh, -, capture⟩ := w.descriptor.resolve_left (by tauto)
    exact ⟨hh, capture⟩
  · intro changed
    rcases w.fLength.resolve_left changed with ⟨hh, -, capture⟩ | ⟨⟨hh, place, answer⟩, zero⟩
    · exact ⟨hh, .inl capture⟩
    · exact ⟨hh, .inr ⟨place, zero, answer⟩⟩

/-! ### The write rights -/

/-- RX_FULL is disarmed at a place where it may not be armed. -/
theorem State.Inv.disarmed_at {s : State} (h : s.Inv) (place : s.seq.rxMayBeArmed = false) : s.armRx = false := by
  by_contra armed
  simp [h.rxArmed (by simpa using armed)] at place

/-- Frame bytes are written by the sequencer in the polling transfer, and by the handler in its drain. -/
theorem StepWrites.fBytes_right {s t : State} (w : StepWrites s t) (h : s.Inv) (changed : t.fBytes ≠ s.fBytes) :
    (s.cfg.discipline = .polling ∧ s.hdl = .idle ∧ s.pstate = .transferring) ∨
      (s.cfg.discipline = .interrupt ∧ s.hdl ≠ .idle ∧ s.armRx = true) := by
  rcases w.fBytes.resolve_left changed with ⟨hh, place⟩ | place
  · exact .inl ⟨h.pollPlaces (by simp [place, SeqPos.polls]), hh, by simp [h.phase, place, pstateAt]⟩
  · have armed := h.drainArmed (.inl place)
    exact .inr ⟨h.seqInv.sound.discipline_of_armed armed, by simp [place], armed⟩

/-- The registers of a transaction and of its check are the sequencer's, while RX_FULL is disarmed. -/
theorem StepWrites.transaction_right {s t : State} (w : StepWrites s t) (h : s.Inv)
    (changed : t.fLength ≠ s.fLength ∨ t.dCid ≠ s.dCid ∨ t.dHascode ≠ s.dHascode ∨ t.dCode ≠ s.dCode ∨
      t.dSettle ≠ s.dSettle ∨ t.receivedCRC ≠ s.receivedCRC ∨ t.computedCRC ≠ s.computedCRC ∨
      t.errorFlag ≠ s.errorFlag) : s.hdl = .idle ∧ s.armRx = false := by
  have writer : s.hdl = .idle ∧ (s.seq = .rest ∨ s.seq = .toDisable ∨ s.seq = .validate) := by
    rcases w.fLength with length | ⟨hh, hs, -⟩ | ⟨⟨hh, hs, -⟩, -⟩
    case inr.inl => exact ⟨hh, .inl hs⟩
    case inr.inr => exact ⟨hh, .inr (.inl hs)⟩
    rcases w.descriptor with ⟨cid, hascode, code, settle⟩ | ⟨hh, hs, -⟩
    case inr => exact ⟨hh, .inl hs⟩
    rcases w.diagnostics with ⟨received, computed⟩ | ⟨hh, hs⟩
    case inr => exact ⟨hh, .inr (.inr hs)⟩
    rcases w.errorFlag with flag | ⟨-, -, hh, hs, -⟩ | ⟨-, -, hh, hs⟩
    · simp [length, cid, hascode, code, settle, received, computed, flag] at changed
    · exact ⟨hh, .inl hs⟩
    · exact ⟨hh, .inr (.inr hs)⟩
  obtain ⟨hh, hs⟩ := writer
  refine ⟨hh, h.disarmed_at ?_⟩
  rcases hs with e | e | e <;> simp [e, SeqPos.rxMayBeArmed]

/-- `pstate`, `idx`, `wcnt` and `configured` are the sequencer's. -/
theorem StepWrites.sequencer_right {s t : State} (w : StepWrites s t)
    (changed : t.pstate ≠ s.pstate ∨ t.idx ≠ s.idx ∨ t.wcnt ≠ s.wcnt ∨ t.configured ≠ s.configured) :
    s.hdl = .idle := by
  rcases changed with ne | ne | ne | ne
  · exact (w.pstate.resolve_left ne).1
  · exact w.idx.resolve_left ne
  · exact w.wcnt.resolve_left ne
  · exact (w.configured.resolve_left ne).2.1

/-- In the polling discipline nobody writes `ready` or the arm bits. -/
theorem StepWrites.polling_right {s t : State} (w : StepWrites s t) (h : s.Inv) (polling : s.cfg.discipline = .polling) :
    t.ready = s.ready ∧ t.armTx = s.armTx ∧ t.armRx = s.armRx := by
  obtain ⟨tx, rx, -, hh, -⟩ := h.quiet polling
  have neverSet (src : Source) (clear : s.armed src = false) : t.armed src = false := by
    by_contra set
    obtain ⟨-, place⟩ := w.arm_rises h src clear (by simpa using set)
    have irq := h.irqPlaces (by rw [place]; cases src <;> rfl)
    simp [polling] at irq
  refine ⟨?_, (neverSet .txEmpty tx).trans tx.symm, (neverSet .rxFull rx).trans rx.symm⟩
  rcases w.ready with stays | ⟨-, running⟩ | ⟨-, -, -, irq⟩
  · exact stays
  · simp [hh] at running
  · simp [polling] at irq

/-- `ready` is set by the handler. -/
theorem StepWrites.ready_set {s t : State} (w : StepWrites s t) (clear : s.ready = false) (set : t.ready = true) :
    s.hdl ≠ .idle := by
  rcases w.ready with stays | ⟨-, running⟩ | ⟨cleared, -⟩
  · simp [clear, set] at stays
  · simp [running]
  · simp [set] at cleared

/-- `ready` is cleared by the sequencer, while RX_FULL is disarmed. -/
theorem StepWrites.ready_cleared {s t : State} (w : StepWrites s t) (h : s.Inv) (set : s.ready = true)
    (clear : t.ready = false) : s.hdl = .idle ∧ s.armRx = false := by
  rcases w.ready with stays | ⟨sets, -⟩ | ⟨-, hh, place, -⟩
  · simp [clear, set] at stays
  · simp [clear] at sets
  · exact ⟨hh, h.disarmed_at (by simp [place, SeqPos.rxMayBeArmed])⟩

/-- Settles O52: one right after the other. -/
theorem writeRights : Obligations.WriteRights := by
  unfold Obligations.WriteRights
  intro s t h stepped noReset
  have w := step_writes stepped noReset
  exact ⟨w.fBytes_right h, w.transaction_right h, w.sequencer_right, w.polling_right h, w.ready_set,
    w.ready_cleared h, w.arm_rises h .txEmpty, w.arm_rises h .rxFull, w.arm_falls h .txEmpty,
    w.arm_falls h .rxFull⟩

/-! ### Cells at or above F.length -/

/-- `s` with another frame buffer. -/
def State.withBytes (s : State) (m : List Host.Cell) : State := { s with fBytes := m }

@[simp] theorem State.withBytes_cfg (s : State) (m : List Host.Cell) : (s.withBytes m).cfg = s.cfg := rfl
@[simp] theorem State.withBytes_fLength (s : State) (m : List Host.Cell) : (s.withBytes m).fLength = s.fLength := rfl
@[simp] theorem State.withBytes_fBytes (s : State) (m : List Host.Cell) : (s.withBytes m).fBytes = m := rfl

section
variable {s : State} {m : List Host.Cell}
  (agree : ∀ k, k < s.fLength → Memory.read m k = Memory.read s.fBytes k)
include agree

/-- A cell below F.length reads the same on two buffers that agree there. -/
theorem memRead_withBytes {a : Nat} (ha : a < s.fLength) : memRead (s.withBytes m) a = memRead s a := by
  simp [memRead, agree a ha]

theorem memReadRange_withBytes :
    ∀ n a, a + n ≤ s.fLength → memReadRange (s.withBytes m) a n = memReadRange s a n := by
  intro n
  induction n with
  | zero => exact fun _ _ => rfl
  | succ n ih =>
    intro a ha
    rw [memReadRange, memReadRange, memRead_withBytes agree (by omega), ih (a + 1) (by omega)]

/-- Host operations do the same on the two buffers: RDFRAME alone reads one, below F.length (R86). -/
theorem exec_withBytes {i : Instr} (hi : i.isHostOp = true) :
    exec i (s.withBytes m) = onNext (fun t => t.withBytes m) (exec i s) := by
  cases i <;> simp only [Instr.isHostOp, Bool.false_eq_true] at hi
  case setup =>
    by_cases ok : cfgOk s.cfg = true
    · rw [exec, exec, execSetup_wellFormed s ok, execSetup_wellFormed (s.withBytes m) ok]; rfl
    · rw [exec, exec, execSetup_illFormed s ok, execSetup_illFormed (s.withBytes m) ok]; rfl
  case capture a =>
    by_cases configured : s.configured = true
    · cases found : descriptorOf s.cfg a with
      | some d =>
        rw [exec, exec, execCapture_found s configured found, execCapture_found (s.withBytes m) configured found]
        rfl
      | none =>
        rw [exec, exec, execCapture_unknown s configured found,
          execCapture_unknown (s.withBytes m) configured found]
        rfl
    · rw [exec, exec, execCapture_unconfigured s configured, execCapture_unconfigured (s.withBytes m) configured]
      rfl
  case rdframe a =>
    by_cases above : s.fLength ≤ a.toNat
    · rw [exec, exec, execRdframe_above s above, execRdframe_above (s.withBytes m) above]; rfl
    · rw [exec, exec, execRdframe_below s above, execRdframe_below (s.withBytes m) above,
        memRead_withBytes agree (by omega)]
      cases memRead s a.toNat <;> rfl
  all_goals rfl

/-- Validation does the same on the two buffers: it reads below F.length alone (R75). -/
theorem validate_withBytes :
    validate (s.withBytes m) = andThen (validate s) fun r => .next (r.map fun t => t.withBytes m) := by
  by_cases malformed : s.fLength < 2 ∨ s.cfg.frameCap < s.fLength
  · rw [validate_malformed s malformed, validate_malformed (s.withBytes m) malformed]
    rfl
  · have last := memRead_withBytes agree (show s.fLength - 1 < s.fLength by omega)
    have payload := memReadRange_withBytes agree (s.fLength - 1) 0 (by omega)
    simp only [validate, State.withBytes_fLength, State.withBytes_cfg, if_neg malformed, last, payload]
    cases memRead s (s.fLength - 1) with
    | fault e => rfl
    | refused e => rfl
    | next last =>
      cases memReadRange s 0 (s.fLength - 1) with
      | fault e => rfl
      | refused e => rfl
      | next payload =>
        simp only [andThen_value]
        cases crc8 s.cfg.frameCap payload (s.fLength - 1) <;> rfl

theorem seqValidate_withBytes :
    seqValidate (s.withBytes m) = onNext (fun t => t.withBytes m) (seqValidate s) := by
  rw [seqValidate, seqValidate, validate_withBytes agree]
  cases validate s with
  | fault e => rfl
  | refused e => rfl
  | next r => cases r <;> rfl

end

/-- Settles O15: RDFRAME and validation alone read the buffer, and both below F.length. -/
theorem staleCellsUnobservable : Obligations.StaleCellsUnobservable := by
  unfold Obligations.StaleCellsUnobservable
  intro s m agree
  exact ⟨fun w i decoded => exec_withBytes agree (decodeHost_hostOp w i decoded), seqValidate_withBytes agree⟩

end Sys2Proof.Machine
end

/-! Proof of O16: when `MemRead` and `MemWrite` stop (R30). -/
section
namespace Sys2Proof.Machine

/-- Settles O16: each outcome, by the law that says when the primitive ends in it. -/
theorem frameAddressesRefused : Obligations.FrameAddressesRefused := by
  unfold Obligations.FrameAddressesRefused
  refine fun s a v => ⟨fun outside => ⟨?readRefused, ?writeRefused⟩, fun inside unwritten => ?readFaults⟩
  case readRefused => exact (memRead_refused s a _).2 ⟨rfl, outside⟩
  case writeRefused => exact (memWrite_refused s a v _).2 ⟨rfl, outside⟩
  case readFaults => exact (memRead_fault s a _).2 ⟨rfl, inside, unwritten⟩

end Sys2Proof.Machine
end

/-! Proofs of O1 to O6 and O55: the two directions of the codec, and from them the tables of R53 and R57 as matches
under masks, the illegal command words of R55 and what each context presents. -/
section
namespace Sys2Proof

/-! ### Decoding and encoding -/

/-- A word with a zero pad is the port word of the code and the argument it holds. -/
theorem portWord_eq_of_fields {w : Word16} {op : BitVec 4} {a : Byte} (pad : padField w = 0#4)
    (code : (opField w).toNat = op.toNat) (arg : argField w = a) : portWord op a = w := by
  rw [← BitVec.eq_of_toNat_eq code, ← arg, portWord_fields w pad]

/-- A port word is the word that holds its code, a zero pad and its argument. -/
theorem portWord_eq_iff {w : Word16} {op : BitVec 4} {a : Byte} :
    portWord op a = w ↔ padField w = 0#4 ∧ opField w = op ∧ argField w = a := by
  constructor
  · rintro rfl
    simp
  · rintro ⟨pad, code, arg⟩
    exact portWord_eq_of_fields pad (congrArg BitVec.toNat code) arg

/-- An accepted operation without an argument: its word holds its code and the argument zero. -/
theorem encode_of_withoutArg {port : Word16 → PortWord} {w : Word16} {op : BitVec 4} {e : DecodeError} {i j : Instr}
    (h : withoutArg e (argField w) j = .ok i) (word : encode j = port (portWord op 0#8)) (pad : padField w = 0#4)
    (code : (opField w).toNat = op.toNat) : encode i = port w := by
  obtain ⟨arg, rfl⟩ := (withoutArg_ok _ _ _ _).1 h
  rw [word, portWord_eq_of_fields pad code arg]

/-- An accepted operation on a byte: its word holds its code and that byte. -/
theorem encode_of_argument {port : Word16 → PortWord} {w : Word16} {op : BitVec 4} {i j : Instr}
    (h : Except.ok (ε := DecodeError) j = .ok i) (word : encode j = port (portWord op (argField w)))
    (pad : padField w = 0#4) (code : (opField w).toNat = op.toNat) : encode i = port w := by
  cases h
  rw [word, portWord_eq_of_fields pad code rfl]

/-- A byte accepted as a source is that source's number (R58). -/
theorem decodeSource_ok {a : Byte} {make : Source → Instr} {i : Instr} (h : decodeSource a make = .ok i) :
    ∃ src, i = make src ∧ a = sourceNumber src := by
  unfold decodeSource at h
  split at h
  case h_1 zero => cases h; exact ⟨.txEmpty, rfl, BitVec.eq_of_toNat_eq zero⟩
  case h_2 one => cases h; exact ⟨.rxFull, rfl, BitVec.eq_of_toNat_eq one⟩
  case h_3 => cases h

/-- A byte accepted as settings is the argument of those settings (R57). -/
theorem decodeSettings_ok {a : Byte} {i : Instr} (h : decodeSettings a = .ok i) :
    ∃ m f, i = .tConfigure m f ∧ a = settingsArg m f := by
  unfold decodeSettings at h
  split at h
  case h_1 value => cases h; exact ⟨.txrx, false, rfl, BitVec.eq_of_toNat_eq value⟩
  case h_2 value => cases h; exact ⟨.rxOnly, false, rfl, BitVec.eq_of_toNat_eq value⟩
  case h_3 value => cases h; exact ⟨.txrx, true, rfl, BitVec.eq_of_toNat_eq value⟩
  case h_4 value => cases h; exact ⟨.rxOnly, true, rfl, BitVec.eq_of_toNat_eq value⟩
  case h_5 => cases h

/-- An accepted operation on a source: its word holds its code and the source's number. -/
theorem encode_of_decodeSource {w : Word16} {op : BitVec 4} {make : Source → Instr} {i : Instr}
    (h : decodeSource (argField w) make = .ok i)
    (word : ∀ src, encode (make src) = .request (.transport (portWord op (sourceNumber src))))
    (pad : padField w = 0#4) (code : (opField w).toNat = op.toNat) :
    encode i = .request (.transport w) := by
  obtain ⟨src, rfl, arg⟩ := decodeSource_ok h
  rw [word, portWord_eq_of_fields pad code arg]

/-- A command word the decoder accepts is the word of the operation it is accepted as. -/
theorem encode_of_decodeHost {w : Word16} {i : Instr} (h : decodeHost w = .ok i) : encode i = .host w := by
  unfold decodeHost at h
  split at h
  · cases h
  case isFalse pad =>
    rw [not_not] at pad
    split at h
    case h_2 code | h_3 code => exact encode_of_argument h rfl pad code
    case h_9 => cases h
    all_goals exact encode_of_withoutArg h rfl pad ‹(opField w).toNat = _›

/-- A request word the decoder accepts is the word of the operation it is accepted as. -/
theorem encode_of_decodeTransport {w : Word16} {i : Instr} (h : decodeTransport w = .ok i) :
    encode i = .request (.transport w) := by
  unfold decodeTransport at h
  split at h
  · cases h
  case isFalse pad =>
    rw [not_not] at pad
    split at h
    case h_5 code | h_6 code | h_7 code => exact encode_of_argument (port := (.request <| .transport ·)) h rfl pad code
    case h_11 code | h_12 code | h_13 code => exact encode_of_decodeSource h (fun _ => rfl) pad code
    case h_14 code =>
      obtain ⟨m, f, rfl, arg⟩ := decodeSettings_ok h
      rw [encode, portWord_eq_of_fields (op := 13#4) pad code arg]
    case h_15 => cases h
    all_goals exact encode_of_withoutArg (port := (.request <| .transport ·)) h rfl pad ‹(opField w).toNat = _›

/-- The word of a host operation is accepted as that operation. -/
theorem decodeHost_of_encode {w : Word16} {i : Instr} (h : encode i = .host w) : decodeHost w = .ok i := by
  cases i <;> simp only [encode, PortWord.host.injEq, reduceCtorEq] at h <;> subst h
  all_goals simp [decodeHost, withoutArg]

/-- Settles O1: each port's decoder and encoder, in each direction. -/
theorem decodeEncodeRoundTrip : Obligations.DecodeEncodeRoundTrip := by
  unfold Obligations.DecodeEncodeRoundTrip
  intro p i
  cases p with
  | host w => exact ⟨encode_of_decodeHost, decodeHost_of_encode⟩
  | request r =>
    refine ⟨fun decoded => ?_, fun word => Machine.decodeRequest_requestOf (by rw [requestOf, word])⟩
    cases r with
    | transport w => exact encode_of_decodeTransport decoded
    | delay n => cases decoded; rfl

/-! ### Words under a mask -/

/-- The command port accepts a word as an operation exactly when it is that operation's word. -/
theorem decodeHost_ok_iff {v w : Word16} {i : Instr} (word : encode i = .host v) : decodeHost w = .ok i ↔ v = w := by
  rw [← PortWord.host.injEq, ← word]
  exact decodeEncodeRoundTrip (.host w) i

/-- The transport port accepts a word as an operation exactly when it is that operation's word. -/
theorem decodeTransport_ok_iff {v w : Word16} {i : Instr} (word : encode i = .request (.transport v)) :
    decodeTransport w = .ok i ↔ v = w := by
  rw [← Request.transport.injEq, ← PortWord.request.injEq, ← word]
  exact decodeEncodeRoundTrip (.request (.transport w)) i

/-- The mask 0xFFFF keeps the whole word: the match is the word itself. -/
theorem portWord_eq_iff_match {w : Word16} {op : BitVec 4} {a : Byte} :
    portWord op a = w ↔ w &&& 0xFFFF#16 = portWord op a := by
  rw [show w &&& 0xFFFF#16 = w from BitVec.and_allOnes, eq_comm]

/-- The mask 0xFF00 keeps the code and the pad: the argument is free. -/
theorem portWord_eq_iff_match_byte {w : Word16} {op : BitVec 4} {a : Byte} :
    portWord op a = w ↔ w &&& 0xFF00#16 = portWord op 0#8 ∧ a = w.extractLsb' 0 8 := by
  have pad : padField (w &&& 0xFF00#16) = padField w := (BitVec.extractLsb'_and ..).trans BitVec.and_allOnes
  have code : opField (w &&& 0xFF00#16) = opField w := (BitVec.extractLsb'_and ..).trans BitVec.and_allOnes
  have arg : argField (w &&& 0xFF00#16) = 0#8 := (BitVec.extractLsb'_and ..).trans BitVec.and_zero
  rw [eq_comm (a := w &&& 0xFF00#16), portWord_eq_iff, portWord_eq_iff, pad, code, arg, eq_comm (a := a)]
  simp [argField, and_assoc]

/-- A mask of one bit more: two words agree under it when they agree under the smaller mask and at that bit. -/
theorem and_eq_and_iff_getLsbD {n k : Nat} {v w mask rest : BitVec n} (more : mask = rest ||| BitVec.twoPow n k)
    (hk : k < n) : w &&& mask = v &&& mask ↔ w &&& rest = v &&& rest ∧ w.getLsbD k = v.getLsbD k := by
  subst more
  simp only [BitVec.eq_of_getLsbD_eq_iff, BitVec.getLsbD_and, BitVec.getLsbD_or, BitVec.getLsbD_twoPow]
  grind

/-- A word is another one when they agree under the mask 0xFFFE and at bit 0. -/
theorem eq_iff_and_fffe {v w : Word16} :
    v = w ↔ w &&& 0xFFFE#16 = v &&& 0xFFFE#16 ∧ w.getLsbD 0 = v.getLsbD 0 := by
  rw [← and_eq_and_iff_getLsbD (mask := 0xFFFF#16) rfl (by decide), show w &&& 0xFFFF#16 = w from BitVec.and_allOnes,
    show v &&& 0xFFFF#16 = v from BitVec.and_allOnes, eq_comm]

/-- The mask 0xFFFE frees bit 0, the source number (R58). -/
theorem portWord_eq_iff_match_source {w : Word16} {op : BitVec 4} {src : Source} :
    portWord op (sourceNumber src) = w ↔
      w &&& 0xFFFE#16 = portWord op 0#8 ∧ (src = .rxFull ↔ w.getLsbD 0 = true) := by
  have kept : portWord op (sourceNumber src) &&& 0xFFFE#16 = portWord op 0#8 := by
    cases src <;> revert op <;> decide
  have low : (portWord op (sourceNumber src)).getLsbD 0 = decide (src = .rxFull) := by
    cases src <;> simp [portWord, sourceNumber]
  rw [eq_iff_and_fffe, kept, low, Bool.eq_iff_iff, decide_eq_true_iff, iff_comm (a := src = .rxFull)]

/-- The mask 0xFFFC frees bits 1 and 0, the FIFO switch and the mode (R57). -/
theorem portWord_eq_iff_match_settings {w : Word16} {op : BitVec 4} {m : ChannelMode} {f : Bool} :
    portWord op (settingsArg m f) = w ↔ w &&& 0xFFFC#16 = portWord op 0#8 ∧
      (m = .rxOnly ↔ w.getLsbD 0 = true) ∧ (f = true ↔ w.getLsbD 1 = true) := by
  have kept : portWord op (settingsArg m f) &&& 0xFFFC#16 = portWord op 0#8 := by
    cases m <;> cases f <;> revert op <;> decide
  have low : (portWord op (settingsArg m f)).getLsbD 0 = decide (m = .rxOnly) := by
    cases m <;> cases f <;> simp [portWord, settingsArg]
  have next : (portWord op (settingsArg m f)).getLsbD 1 = f := by
    cases m <;> cases f <;> simp [portWord, settingsArg]
  rw [eq_iff_and_fffe, and_eq_and_iff_getLsbD (mask := 0xFFFE#16) (rest := 0xFFFC#16) (k := 1) rfl (by decide), kept,
    low, next]
  grind

/-! ### Words that are refused -/

/-- An operation without an argument is refused exactly when its argument is not zero. -/
theorem accepted_withoutArg_eq_none {e : DecodeError} {a : Byte} {i : Instr} :
    accepted (withoutArg e a i) = none ↔ a ≠ 0#8 := by
  by_cases zero : a = 0#8 <;> simp [withoutArg, accepted, zero]

/-- The codes 0xE and 0xF are no request (R57). -/
theorem accepted_decodeTransport_of_neverIssued {w : Word16} (high : 14#4 ≤ opField w) :
    accepted (decodeTransport w) = none := by
  have high : 14 ≤ (opField w).toNat := high
  unfold decodeTransport
  split
  · rfl
  · split
    case h_15 => rfl
    all_goals omega

/-- The illegal command words of R55, by the fields of the word. -/
theorem accepted_decodeHost_eq_none_iff {w : Word16} : accepted (decodeHost w) = none ↔
    (opField w = 0x0#4 ∨ 0x9#4 ≤ opField w) ∨ padField w ≠ 0#4 ∨
      (opField w ∈ [0x1#4, 0x4#4, 0x5#4, 0x6#4, 0x7#4, 0x8#4] ∧ argField w ≠ 0x00#8) := by
  simp only [← BitVec.toNat_inj (x := opField w), List.mem_cons, List.not_mem_nil, or_false, BitVec.le_def]
  unfold decodeHost
  split
  case isTrue pad => simp [accepted, pad]
  case isFalse pad =>
    split
    case h_2 code | h_3 code => simp [accepted, pad, code]
    case h_9 =>
      have unassigned : (opField w).toNat = 0 ∨ 9 ≤ (opField w).toNat := by grind
      simp [accepted, unassigned]
    all_goals simp [accepted_withoutArg_eq_none, *]

/-- Settles O2: an operation's word has the match of its row, under a mask that frees the operand alone. -/
theorem hostWordsSpellTheTable : Obligations.HostWordsSpellTheTable := by
  unfold Obligations.HostWordsSpellTheTable
  intro w
  have fixed {i : Instr} (op : BitVec 4) (word : encode i = .host (portWord op 0#8)) :
      decodeHost w = .ok i ↔ w &&& 0xFFFF#16 = portWord op 0#8 := (decodeHost_ok_iff word).trans portWord_eq_iff_match
  have onByte {i : Instr} {a : Byte} (op : BitVec 4) (word : encode i = .host (portWord op a)) :
      decodeHost w = .ok i ↔ w &&& 0xFF00#16 = portWord op 0#8 ∧ a = w.extractLsb' 0 8 :=
    (decodeHost_ok_iff word).trans portWord_eq_iff_match_byte
  refine ⟨fixed 1 rfl, fun _ => onByte 2 rfl, fun _ => onByte 3 rfl, fixed 4 rfl, fixed 5 rfl, fixed 6 rfl,
    fixed 7 rfl, fixed 8 rfl, fun reserved => accepted_decodeHost_eq_none_iff.2 (.inl reserved), fun i decoded => ?_⟩
  have host := decodeHost_hostOp w i decoded
  cases i <;> simp [Instr.isHostOp] at host ⊢

/-- Settles O3: an operation's word has the match of its row, under a mask that frees its argument's bits alone. -/
theorem transportWordsSpellTheTable : Obligations.TransportWordsSpellTheTable := by
  unfold Obligations.TransportWordsSpellTheTable
  intro w
  have fixed {i : Instr} (op : BitVec 4) (word : encode i = .request (.transport (portWord op 0#8))) :
      decodeTransport w = .ok i ↔ w &&& 0xFFFF#16 = portWord op 0#8 :=
    (decodeTransport_ok_iff word).trans portWord_eq_iff_match
  have onByte {i : Instr} {a : Byte} (op : BitVec 4) (word : encode i = .request (.transport (portWord op a))) :
      decodeTransport w = .ok i ↔ w &&& 0xFF00#16 = portWord op 0#8 ∧ a = w.extractLsb' 0 8 :=
    (decodeTransport_ok_iff word).trans portWord_eq_iff_match_byte
  have onSource {i : Instr} {src : Source} (op : BitVec 4)
      (word : encode i = .request (.transport (portWord op (sourceNumber src)))) :
      decodeTransport w = .ok i ↔ w &&& 0xFFFE#16 = portWord op 0#8 ∧ (src = .rxFull ↔ w.getLsbD 0 = true) :=
    (decodeTransport_ok_iff word).trans portWord_eq_iff_match_source
  exact ⟨fixed 0 rfl, fixed 1 rfl, fixed 2 rfl, fixed 3 rfl, fun _ => onByte 4 rfl, fun _ => onByte 5 rfl,
    fun _ => onByte 6 rfl, fixed 7 rfl, fixed 8 rfl, fixed 9 rfl, fun _ => onSource 10 rfl, fun _ => onSource 11 rfl,
    fun _ => onSource 12 rfl, fun _ _ => (decodeTransport_ok_iff rfl).trans portWord_eq_iff_match_settings,
    accepted_decodeTransport_of_neverIssued⟩

/-! ### Response words, and words written out -/

/-- Settles O5: a response word is a port word. -/
theorem responseWordLayout : Obligations.ResponseWordLayout := by
  unfold Obligations.ResponseWordLayout
  exact ⟨fun st d => ⟨opField_portWord st.code d, padField_portWord st.code d, argField_portWord st.code d⟩,
    rfl, rfl, rfl, rfl, rfl⟩

/-- Settles O6: each word is the encoding of its operation. -/
theorem writtenWordsDecode : Obligations.WrittenWordsDecode := by
  unfold Obligations.WrittenWordsDecode
  have decoded {p : PortWord} {i : Instr} (word : encode i = p) : decode p = .ok i := (decodeEncodeRoundTrip p i).2 word
  exact ⟨decoded rfl, decoded rfl, decoded rfl, decoded rfl, decoded rfl, decoded rfl, decoded rfl, decoded rfl,
    decoded rfl⟩

end Sys2Proof

namespace Sys2Proof.Machine

/-! ### What accepting an illegal word does -/

/-- A rejected command word is answered by the word of MALFORMED/0x00, and nothing else is written (R52, R54, R55). -/
theorem rejectCommand_eq (s : State) :
    s.rejectCommand = { s with responses := s.responses ++ [0x2000#16] } := rfl

/-- A block at rest that holds an illegal word takes one step: the word is gone and MALFORMED is delivered (R55). -/
theorem step_illegalCommand {s : State} {w : Word16} {ws : List Word16} (turn : s.turn = .run) (rest : s.atRest)
    (held : s.cmds = w :: ws) (illegal : accepted (decodeHost w) = none) :
    step s = .next { s.afterTurn with cmds := ws, responses := s.responses ++ [0x2000#16] } := by
  obtain ⟨hdl, noDelay, seq, sreq, pstate⟩ := rest
  have fetched := fetch_command_word s.afterTurn w ws (by simpa) (by simpa) (by simpa) (by simpa) (by simpa) (by simpa)
  cases decoded : decodeHost w with
  | ok i => simp [accepted, decoded] at illegal
  | error e =>
    rw [decoded] at fetched
    rw [step_run s turn, runTurn_illegal _ e fetched, rejectCommand_eq]
    simp [State.acceptCommand, held]

/-- Settles O4: which words the decoder refuses, and the step that accepts one. -/
theorem illegalCommandWords : Obligations.IllegalCommandWords := by
  unfold Obligations.IllegalCommandWords
  exact ⟨fun w => accepted_decodeHost_eq_none_iff, fun s w ws => step_illegalCommand⟩

/-! ### What the two contexts present -/

/-- A frame length of a well-formed build is its own argument byte, in the range of a count (R135, R136). -/
theorem countByte_inRange {cfg : Config} {n : Nat} (ok : cfgOk cfg = true) (long : 2 ≤ n)
    (inside : n ≤ cfg.frameCap) :
    2 ≤ (countByte n).toNat ∧ (countByte n).toNat ≤ cfg.frameCap := by
  have := (cfgOk_frameCap ok).2
  have same : (countByte n).toNat = n := by simp [countByte]; omega
  omega

/-- The request at the sequencer's place is well formed: its counts are frame lengths, its delay a descriptor's. -/
theorem State.Inv.seqRequest_wellFormed {s : State} (h : s.Inv) {i : Instr} (place : seqRequest s s.seq = some i) :
    i.wellFormed s.cfg = true := by
  have count (flight : s.seq.inCapture = true) :
      2 ≤ (countByte s.fLength).toNat ∧ (countByte s.fLength).toNat ≤ s.cfg.frameCap := by
    obtain ⟨-, long, -⟩ := h.inFlight flight
    obtain ⟨ok, inside⟩ := h.seqInv.sound.length_le long
    exact countByte_inRange ok long inside
  cases hs : s.seq <;> simp only [hs, seqRequest, reduceCtorEq, Option.some.injEq] at place <;> subst place
  case setWordCount => simpa [Instr.wellFormed] using count (by rw [hs]; rfl)
  case setTrigger => simpa [Instr.wellFormed] using count (by rw [hs]; rfl)
  case waitTicks =>
    obtain ⟨-, -, delay⟩ := h.inFlight (by rw [hs]; rfl)
    simpa [Instr.wellFormed] using delay
  all_goals rfl

/-- Every request of the handler is well formed in every build: none carries a count (R160 to R163). -/
theorem hdlRequest_wellFormed {s : State} {p : HdlPos} {i : Instr} (place : hdlRequest s p = some i) (cfg : Config) :
    i.wellFormed cfg = true := by
  cases p <;> simp only [hdlRequest, reduceCtorEq, Option.some.injEq] at place <;> subst place <;> rfl

/-- Settles O55: a presented request is the word of the operation at its context's place. -/
theorem presentedRequestsWellFormed : Obligations.PresentedRequestsWellFormed := by
  unfold Obligations.PresentedRequestsWellFormed
  rintro s r h (presented | presented)
  · obtain ⟨i, place, word⟩ := Option.bind_eq_some_iff.1 (h.presented.symm.trans presented)
    exact ⟨i, decodeRequest_requestOf word, h.seqRequest_wellFormed place⟩
  · obtain ⟨i, place, word⟩ := Option.bind_eq_some_iff.1 (h.hdlPresented.symm.trans presented)
    exact ⟨i, decodeRequest_requestOf word, hdlRequest_wellFormed place s.cfg⟩

end Sys2Proof.Machine
end

/-! Proofs of O36 to O39: one step of the table's procedure is linear and injective, so the table is; what one more byte
does to the checksum; what validation reads of a frame the buffer holds. -/
section
namespace Sys2Proof.Machine

/-! ### The table (R71) -/

/-- What a step adds to the shifted byte: the polynomial, if a 1 is shifted out. -/
def tblFold (out : Bool) : Byte := if out then 0x97#8 else 0x00#8

theorem tblFold_xor (p q : Bool) : tblFold (p ^^ q) = tblFold p ^^^ tblFold q := by revert p q; decide

theorem tblStep_eq_shift_xor_fold (c : Byte) : tblStep c = c <<< 1 ^^^ tblFold (c.getLsbD 7) := by
  unfold tblStep tblFold
  split <;> simp

/-- A step is linear, as the shift and what it adds are. -/
theorem tblStep_xor (a b : Byte) : tblStep (a ^^^ b) = tblStep a ^^^ tblStep b := by
  simp only [tblStep_eq_shift_xor_fold, BitVec.shiftLeft_xor_distrib, BitVec.getLsbD_xor, tblFold_xor]
  ac_rfl

/-- Only zero steps to zero: bit 0 of the polynomial is 1, so the bit shifted out is not lost. -/
theorem tblStep_eq_zero_iff : ∀ c : Byte, tblStep c = 0#8 ↔ c = 0#8 := by decide

theorem tblStep_injective : Function.Injective tblStep := by
  intro a b same
  rwa [← BitVec.xor_eq_zero_iff, ← tblStep_xor, tblStep_eq_zero_iff, BitVec.xor_eq_zero_iff] at same

theorem tbl_eq_iterate : tbl = tblStep^[8] := rfl

theorem tbl_xor (a b : Byte) : tbl (a ^^^ b) = tbl a ^^^ tbl b := by simp only [tbl, tblStep_xor]

theorem tbl_injective : Function.Injective tbl := by
  rw [tbl_eq_iterate]
  exact tblStep_injective.iterate 8

@[simp] theorem tbl_zero : tbl 0x00#8 = 0x00#8 := by decide

@[simp] theorem tbl_allOnes : tbl 0xFF#8 = 0x3C#8 := by decide

/-- Settles O36: an injection of the bytes into themselves meets every byte. -/
theorem tableIsLinearBijection : Obligations.TableIsLinearBijection := by
  unfold Obligations.TableIsLinearBijection
  have onto : Function.Surjective tbl := Finite.surjective_of_injective tbl_injective
  exact ⟨tbl_zero, by decide, by decide, by decide, by decide, by decide, by decide, by decide, by decide,
    tbl_allOnes, tbl_xor, fun _ _ same => tbl_injective same, onto⟩

/-! ### The checksum (R72, R73, R77) -/

theorem crc8_refused {cap n : Nat} (buffer : List Byte) (h : n = 0 ∨ cap < n) :
    crc8 cap buffer n = .error .malformedRequest := by
  rw [crc8, if_pos h]

/-- The checksum depends on the first `n` bytes alone (R77 (a)). -/
theorem crc8_congr_take {n : Nat} {x y : List Byte} (cap : Nat) (h : x.take n = y.take n) :
    crc8 cap x n = crc8 cap y n := by
  rw [crc8, crc8, h]

/-- The model's recursion is R72's loop followed by the last lookup. -/
theorem crcLoop_eq_tbl_foldl (t : Byte) (bs : List Byte) :
    crcLoop t bs = tbl (bs.foldl (fun t x => x ^^^ tbl t) t) := by
  induction bs generalizing t with
  | nil => rfl
  | cons b bs ih => rw [crcLoop, ih, List.foldl_cons]

/-- Settles O37: the bytes past the count do not matter, and the loop is a fold. -/
theorem crcFollowsAlgorithm : Obligations.CrcFollowsAlgorithm := by
  unfold Obligations.CrcFollowsAlgorithm
  refine ⟨fun cap b bs rest inside => ?_, fun _ buffer _ => crc8_refused buffer⟩
  have first : (b :: bs ++ rest).take (bs.length + 1) = (b :: bs).take (bs.length + 1) := by simp
  rw [crc8_congr_take cap first, crc8_ok cap b bs inside, crcLoop_eq_tbl_foldl]

/-- One more byte costs the checksum one more lookup. -/
@[simp] theorem crcTextbook_concat (x : List Byte) (b : Byte) : crcTextbook (x ++ [b]) = tbl (crcTextbook x ^^^ b) :=
  List.foldl_concat ..

/-- The loop seeded with the first byte is the textbook CRC of all bytes: `Tbl(t_i) = c_i` (R77 (b)). -/
theorem crcLoop_eq_crcTextbook (b : Byte) (bs : List Byte) : crcLoop b bs = crcTextbook (b :: bs) := by
  rw [crcLoop_eq_tbl_foldl]
  induction bs using List.reverseRecOn with
  | nil => simp [crcTextbook]
  | append_singleton bs c ih =>
    rw [List.foldl_concat, ih, ← List.cons_append, crcTextbook_concat, BitVec.xor_comm]

/-- Messages of one length (R77 (c)): each byte more is one lookup, and the table is linear. -/
theorem crcTextbook_zipWith_xor (x y : List Byte) (len : x.length = y.length) :
    crcTextbook (x.zipWith (· ^^^ ·) y) = crcTextbook x ^^^ crcTextbook y := by
  induction x using List.reverseRecOn generalizing y with
  | nil =>
    obtain rfl := List.eq_nil_of_length_eq_zero len.symm
    rfl
  | append_singleton x a ih =>
    obtain rfl | ⟨y, b, rfl⟩ := y.eq_nil_or_concat
    · simp at len
    have len : x.length = y.length := by simpa using len
    have swap (c d : Byte) : c ^^^ d ^^^ (a ^^^ b) = c ^^^ a ^^^ (d ^^^ b) := by ac_rfl
    rw [List.concat_eq_append, List.zipWith_append len, List.zipWith_cons_cons, List.zipWith_nil_left,
      crcTextbook_concat, crcTextbook_concat, crcTextbook_concat, ih y len, swap, tbl_xor]

/-- Settles O38: (d) is the lookup of `c ^ c` and of `c ^ ~c`, (e) the lookup of zero. -/
theorem crcProperties : Obligations.CrcProperties := by
  unfold Obligations.CrcProperties
  refine ⟨fun cap _ _ _ => crc8_congr_take cap, fun cap x filled inside => ?_, crcTextbook_zipWith_xor,
    fun x => ⟨?appended, ?complemented⟩, fun x => ?leading⟩
  · obtain ⟨b, bs, rfl⟩ := List.exists_cons_of_ne_nil filled
    rw [← crcLoop_eq_crcTextbook]
    exact crc8_ok cap b bs inside
  case appended => rw [crcTextbook_concat, BitVec.xor_self, tbl_zero]
  case complemented =>
    have ones (c : Byte) : c ^^^ ~~~c = 0xFF#8 := by
      rw [← BitVec.xor_allOnes, ← BitVec.xor_assoc, BitVec.xor_self, BitVec.zero_xor]; rfl
    rw [crcTextbook_concat, ones, tbl_allOnes]
  case leading => rw [crcTextbook, crcTextbook, List.foldl_cons, BitVec.xor_self, tbl_zero]

/-! ### Validation (R75, R76) -/

/-- The flag is kept when the check passes and set when it fails (R76). -/
theorem stickyAfter_verdictOf (flag : Verdict) (received computed : Byte) :
    stickyAfter flag (verdictOf received computed) = if received = computed then flag else .fail := by
  unfold verdictOf
  split <;> cases flag <;> rfl

/-- A cell of the bytes the buffer holds reads as that byte. -/
theorem Memory.holds.read {m old : List Host.Cell} {bytes : List Byte} (holds : Memory.holds m old bytes) {k : Nat}
    {b : Byte} (cell : bytes[k]? = some b) : Memory.read m k = some b := by
  rw [holds k, cell]

/-- The first bytes the buffer holds are read in one go. -/
theorem memReadRange_of_holds {s : State} {old : List Host.Cell} {bytes more : List Byte}
    (holds : Memory.holds s.fBytes old (bytes ++ more)) (inside : bytes.length ≤ s.cfg.frameCap) :
    memReadRange s 0 bytes.length = .next bytes := by
  refine (memReadRange_next s _ 0 bytes).2 ⟨rfl, fun k hk => ⟨by omega, holds.read ?_⟩⟩
  rw [Nat.zero_add, List.getElem?_append_left hk, List.getElem?_eq_getElem hk]

/-- The byte after the first ones the buffer holds. -/
theorem memRead_of_holds {s : State} {old : List Host.Cell} {bytes more : List Byte} {b : Byte}
    (holds : Memory.holds s.fBytes old (bytes ++ b :: more)) (inside : bytes.length < s.cfg.frameCap) :
    memRead s bytes.length = .next b :=
  (memRead_next s _ b).2 ⟨inside, holds.read (by simp)⟩

/-- Validation of a frame the buffer holds, as the check it records. -/
theorem validate_of_holds {s : State} {old : List Host.Cell} {payload : List Byte} {last : Byte}
    (filled : payload ≠ []) (len : s.fLength = payload.length + 1) (inside : s.fLength ≤ s.cfg.frameCap)
    (holds : Memory.holds s.fBytes old (payload ++ [last])) :
    validate s = .next (.ok (s.recordCheck (~~~last) (crcTextbook payload))) := by
  obtain ⟨b, bs, rfl⟩ := List.exists_cons_of_ne_nil filled
  rw [← crcLoop_eq_crcTextbook]
  exact validate_frame s b last bs len inside (memReadRange_of_holds holds (by omega))
    (memRead_of_holds holds (by omega))

/-- Settles O39: the check is refused or recorded. -/
theorem validateWritesDiagnostics : Obligations.ValidateWritesDiagnostics := by
  unfold Obligations.ValidateWritesDiagnostics
  refine fun s => ⟨validate_malformed s, fun payload last filled len inside holds => ?_⟩
  rw [validate_of_holds filled len inside holds, State.recordCheck, stickyAfter_verdictOf]

end Sys2Proof.Machine
end

/-! Proof of O48: a word is accepted by a block at rest alone, and each step that starts or ends an operation answers as
the count asks. -/
section
namespace Sys2Proof.Machine

/-! ### Which steps accept a command word -/

theorem acceptsCommand_eq_true_iff (s : State) : acceptsCommand s = true ↔ s.turn = .run ∧
    ((∃ i, fetch s.afterTurn = .command i) ∨ ∃ e, fetch s.afterTurn = .illegalCommand e) := by
  unfold acceptsCommand
  split <;> simp_all

/-- A handler run fetches no command word (R165). -/
theorem fetch_running {s : State} (running : s.hdl ≠ .idle) :
    (∀ i, fetch s ≠ .command i) ∧ ∀ e, fetch s ≠ .illegalCommand e := by
  unfold fetch fetchHandler fetchRequest
  rw [if_neg running]
  constructor <;> intro x <;> (repeat' split) <;> simp

/-- Neither a handler run nor an operation in flight accepts a command word (R80, R81, R165). -/
theorem acceptsCommand_of_busy {s : State} (busy : s.hdl ≠ .idle ∨ s.seq ≠ .rest) : acceptsCommand s = false := by
  obtain ⟨noCommand, noIllegal⟩ : (∀ i, fetch s.afterTurn ≠ .command i) ∧
      ∀ e, fetch s.afterTurn ≠ .illegalCommand e := by
    rcases busy with running | flight
    · exact fetch_running (by simpa using running)
    · exact fetch_busy _ (.inr (by simpa using flight))
  simp [← Bool.not_eq_true, acceptsCommand_eq_true_iff, noCommand, noIllegal]

/-- Only the processor accepts a command word. -/
theorem acceptsCommand_of_turn {s : State} (turn : s.turn ≠ .run) : acceptsCommand s = false := by
  simp [← Bool.not_eq_true, acceptsCommand_eq_true_iff, turn]

/-! ### The count -/

/-- The step delivers no response or one, and `accepted` words raise the count of responses and operations in flight. -/
structure Answers (s t : State) (accepted : Nat) : Prop where
  responses : t.responses = s.responses ∨ ∃ w, t.responses = s.responses ++ [w]
  count : t.responses.length + inFlightCount t = s.responses.length + inFlightCount s + accepted

/-- Neither the responses nor the sequencer's place change, or it goes from one place of an operation to another. -/
theorem Answers.none {s t : State} (responses : t.responses = s.responses) (place : t.seq = .rest ↔ s.seq = .rest) :
    Answers s t 0 :=
  ⟨.inl responses, by simp [inFlightCount, responses, place]⟩

/-- The operation in flight is answered and over. -/
theorem Answers.finish {s t : State} {w : Word16} (responses : t.responses = s.responses ++ [w])
    (flight : s.seq ≠ .rest) (ended : t.seq = .rest) : Answers s t 0 :=
  ⟨.inr ⟨w, responses⟩, by simp [inFlightCount, responses, flight, ended]⟩

/-- An operation begins with its acceptance. -/
theorem Answers.begin {s t : State} (responses : t.responses = s.responses) (rest : s.seq = .rest)
    (flight : t.seq ≠ .rest) : Answers s t 1 :=
  ⟨.inl responses, by simp [inFlightCount, responses, rest, flight]⟩

/-- A word is answered by the step that accepts it. -/
theorem Answers.atOnce {s t : State} {w : Word16} (responses : t.responses = s.responses ++ [w])
    (rest : s.seq = .rest) (ended : t.seq = .rest) : Answers s t 1 :=
  ⟨.inr ⟨w, responses⟩, by simp [inFlightCount, responses, rest, ended]⟩

/-- The two requests that end an operation, SETUP's and a timeout's last, are answered when they are complete. -/
theorem seqResume_last_answers {u t : State} (h : seqResume u = .next t)
    (place : u.seq = .configure ∨ u.seq = .toDisable) :
    t.seq = .rest ∧ ∃ w, t.responses = u.responses ++ [w] := by
  rcases place with place | place <;> simp only [seqResume, place, Host.Outcome.next.injEq] at h <;> subst h
  · unfold State.endSetup
    split <;> exact ⟨rfl, _, rfl⟩
  · exact ⟨rfl, _, rfl⟩

/-- A request of the sequencer keeps its operation in flight, or ends it with the response. -/
theorem SeqResumed.counts {u t : State} (done : SeqResumed u t) (h : seqResume u = .next t)
    (flight : u.seq ≠ .rest) : Answers u t 0 := by
  by_cases last : u.seq = .configure ∨ u.seq = .toDisable
  · obtain ⟨ended, w, responses⟩ := seqResume_last_answers h last
    exact .finish responses flight ended
  · rw [not_or] at last
    have responses : t.responses = u.responses := by
      rcases done.responses with same | ⟨place, -⟩ | ⟨place, -⟩
      · exact same
      · exact absurd place last.1
      · exact absurd place last.2
    exact .none responses (by simp [flight, done.seq last.1 last.2 flight])

/-- An action of the sequencer keeps its operation in flight, or ends it with the response. -/
theorem SeqActed.counts {s t : State} (acted : SeqActed s t) (flight : s.seq ≠ .rest) : Answers s t 0 := by
  rcases acted.responses with same | ⟨ended, -, w, responses⟩
  · have goesOn : t.seq ≠ .rest := by
      refine acted.seq (fun place => ?_) flight same
      obtain ⟨w, responses⟩ := acted.answers place
      simp [same] at responses
    exact .none same (by simp [flight, goesOn])
  · exact .finish responses flight ended

/-- A host operation is answered at once or in flight after its acceptance. -/
theorem HostActed.counts {i : Instr} {s t : State} (acted : HostActed i s t) (rest : s.seq = .rest) :
    Answers s t 1 := by
  rcases acted.responses with ⟨same, flight⟩ | ⟨place, w, responses⟩
  · exact .begin same rest flight
  · exact .atOnce responses rest (place.trans rest)

/-- The count sees the responses and the sequencer's place alone. -/
theorem Answers.from {s u t : State} {n : Nat} (h : Answers u t n) (responses : u.responses = s.responses)
    (place : u.seq = s.seq) : Answers s t n := by
  obtain ⟨grows, count⟩ := h
  simp only [inFlightCount, responses, place] at grows count
  exact ⟨grows, count⟩

theorem answers_deliver (s : State) : Answers s s.deliver 0 := by
  unfold State.deliver State.enterHandler
  split
  · split <;> exact .none (by simp) (by simp)
  · exact .none rfl Iff.rfl

/-- What a step that is no reset answers. -/
theorem State.Inv.step_answers {s t : State} (h : s.Inv) (stepped : step s = .next t) (noReset : s.turn ≠ .reset) :
    Answers s t (if acceptsCommand s then 1 else 0) := by
  have taken {n : Nat} (answers : Answers s.afterTurn t n) : Answers s t n := answers.from (by simp) (by simp)
  cases step_cases s t stepped with
  | interrupt turn e =>
    rw [acceptsCommand_of_turn (by simp [turn])]
    exact e ▸ (answers_deliver _).from (by simp) (by simp)
  | delayDone turn e =>
    rw [acceptsCommand_of_turn (by simp [turn])]
    exact taken (e ▸ .none rfl Iff.rfl)
  | present w turn e =>
    rw [acceptsCommand_of_turn (by simp [turn])]
    exact taken (e ▸ .none rfl Iff.rfl)
  | reset turn _ => exact absurd turn noReset
  | command turn i fetched host _ rest _ e =>
    rw [(acceptsCommand_eq_true_iff s).2 ⟨turn, .inl ⟨i, fetched⟩⟩]
    exact ((exec_host_law i host _ t e).counts (by simpa using rest)).from (by simp) (by simp)
  | illegal turn x fetched _ rest _ e =>
    rw [(acceptsCommand_eq_true_iff s).2 ⟨turn, .inr ⟨x, fetched⟩⟩]
    exact taken (e ▸ .atOnce rfl (by simpa using rest) (by simpa [State.rejectCommand] using rest))
  | sequencerRequest _ i r u _ _ presented decoded _ made e =>
    have flight : s.seq ≠ .rest := by
      intro rest
      simpa [rest, seqRequest] using h.seqRequest_of_presented presented decoded
    rw [acceptsCommand_of_busy (.inr flight)]
    have answers := (seqResume_law u t e).counts e (by simpa [made.seq] using flight)
    exact taken (answers.from made.responses made.seq)
  | handlerRequest _ i r u running _ _ _ made e =>
    rw [acceptsCommand_of_busy (.inl running)]
    have done := hdlResume_law u t e
    exact taken (.none (done.responses.trans made.responses) (by rw [done.seq, made.seq]))
  | sequencerAction _ _ _ _ flight e =>
    rw [acceptsCommand_of_busy (.inr flight)]
    have flight : s.afterTurn.seq ≠ .rest := by simpa using flight
    exact taken ((seqAction_law _ t flight e).counts flight)
  | handlerAction _ running _ e =>
    rw [acceptsCommand_of_busy (.inl running)]
    exact taken (e ▸ .none rfl Iff.rfl)
  | waiting _ _ fetched _ e =>
    have declined : acceptsCommand s = false := by simp [← Bool.not_eq_true, acceptsCommand_eq_true_iff, fetched]
    rw [declined]
    exact taken (e ▸ .none rfl Iff.rfl)

/-- Settles O48: what each part of a step answers, against what it accepts. -/
theorem oneResponsePerCommand : Obligations.OneResponsePerCommand := by
  unfold Obligations.OneResponsePerCommand
  intro s t h noReset stepped
  obtain ⟨responses, count⟩ := h.step_answers stepped noReset
  refine ⟨?_, count⟩
  rcases responses with same | ⟨w, grows⟩
  · exact ⟨[], by simpa using same⟩
  · exact ⟨[w], grows⟩

end Sys2Proof.Machine
end

/-! Rules for runs: the turn and the reply at the head of their lists, runs put together, and the step that makes the
sequencer's request. -/
section
namespace Sys2Proof.Machine

/-! ### Turns and replies at the head of their lists -/

theorem State.turn_of_turns {s : State} {t : Turn} {ts : List Turn} (turns : s.turns = t :: ts) : s.turn = t := by
  rw [State.turn, turns]

theorem State.afterTurn_of_turns {s : State} {t : Turn} {ts : List Turn} (turns : s.turns = t :: ts) :
    s.afterTurn = { s with turns := ts } := by
  rw [State.afterTurn, turns]

theorem State.issueForReply_of_replies {s : State} {b : Byte} {bs : List Byte} (replies : s.replies = b :: bs)
    (i : Instr) :
    s.issueForReply i = { s with replies := bs, tqRd := b, trace := s.trace ++ [⟨s.context, i, some b⟩] } := by
  simp [State.issueForReply, State.reply, State.afterReply, replies]

/-! ### Runs put together -/

theorem runSteps_then {n : Nat} {s t : State} {x : Result State} (first : step s = .next t)
    (rest : runSteps n t = x) : runSteps (n + 1) s = x :=
  (runSteps_succ n s t first).trans rest

theorem runSteps_append {m n : Nat} {s t : State} {x : Result State} (first : runSteps m s = .next t)
    (rest : runSteps n t = x) : runSteps (m + n) s = x :=
  (runSteps_add m n s t first).trans rest

/-! ### A request of the sequencer -/

theorem State.standsAt.seq {s : State} {p : SeqPos} (stands : s.standsAt p) : s.seq = p := stands.2.2.1

/-- The request of the sequencer's place is made, and the sequencer goes on from what that leads to (R130). -/
theorem step_request {s u : State} {p : SeqPos} {i : Instr} {ts : List Turn} (stands : s.standsAt p)
    (place : seqRequest s p = some i) (turns : s.turns = .run :: ts) (made : exec i { s with turns := ts } = .next u) :
    step s = seqResume u := by
  obtain ⟨hdl, noDelay, -, presented⟩ := stands
  obtain ⟨r, word⟩ := requestOf_seqRequest place
  have presented : s.sreq = some r := by rw [presented, place, Option.bind_some, word]
  have decoded := decodeRequest_requestOf word
  obtain ⟨v, answered, port⟩ := exec_port_law i r decoded { s with turns := ts }
  obtain rfl : u = v := by simpa [answered, eq_comm] using made
  have fetched : fetch { s with turns := ts } = .request i :=
    fetch_sequencer_request _ r i hdl noDelay presented decoded
  rw [step_run s (State.turn_of_turns turns), State.afterTurn_of_turns turns, runTurn_request _ i fetched, made,
    andThen_value, resume_sequencer u (port.hdl.trans hdl)]

/-- A request without a reply is made. -/
theorem step_called {s : State} {p : SeqPos} {i : Instr} {ts : List Turn} (stands : s.standsAt p)
    (place : seqRequest s p = some i) (turns : s.turns = .run :: ts) (made : ∀ u, exec i u = .next (u.issue i)) :
    step s = seqResume { s with turns := ts, trace := s.trace ++ [called i] } := by
  rw [step_request stands place turns (made _), State.issue, State.context, if_pos stands.1, called]

/-- A request with a reply is made. -/
theorem step_asked {s : State} {p : SeqPos} {i : Instr} {ts : List Turn} {b : Byte} {bs : List Byte}
    (stands : s.standsAt p) (place : seqRequest s p = some i) (turns : s.turns = .run :: ts)
    (replies : s.replies = b :: bs) (made : ∀ u, exec i u = .next (u.issueForReply i)) :
    step s = seqResume { s with turns := ts, replies := bs, tqRd := b, trace := s.trace ++ [asked i b] } := by
  rw [step_request stands place turns (made _), State.issueForReply_of_replies (s := { s with turns := ts }) replies,
    State.context, if_pos stands.1, asked]

end Sys2Proof.Machine
end

/-! Proofs of O7, O10 to O14: the step at rest, what each host operation does, and the whole run of SETUP. -/
section
namespace Sys2Proof.Machine

/-! ### The block at rest -/

/-- A word the host presents joins the end of the queue (R80). -/
theorem step_presented {s : State} {w : Word16} (turn : s.turn = .present w) :
    step s = .next { s.afterTurn with cmds := s.cmds ++ [w] } := by
  rw [step_present s w turn, State.presentCommand, State.afterTurn_cmds]

/-- A block at rest runs the operation its first word spells, that word removed (R80, R81). -/
theorem step_command {s : State} {w : Word16} {ws : List Word16} {i : Instr} (turn : s.turn = .run) (rest : s.atRest)
    (held : s.cmds = w :: ws) (decoded : decodeHost w = .ok i) : step s = exec i { s.afterTurn with cmds := ws } := by
  obtain ⟨hdl, noDelay, seq, sreq, pstate⟩ := rest
  have fetched := fetch_command_word s.afterTurn w ws (by simpa) (by simpa) (by simpa) (by simpa) (by simpa) (by simpa)
  rw [decoded] at fetched
  rw [step_run s turn, runTurn_command _ i fetched, State.acceptCommand, State.afterTurn_cmds, held, List.tail_cons]

/-- Settles O7: the host's turn and the processor's turn at rest. -/
theorem stepRunsAcceptedCommand : Obligations.StepRunsAcceptedCommand := by
  unfold Obligations.StepRunsAcceptedCommand
  exact ⟨fun _ _ => step_presented, fun _ _ _ _ => step_command⟩

/-! ### What the host operations do -/

/-- Settles O11: one check of R84 after the other; the word of R57 is written out. -/
theorem captureChecksThenBegins : Obligations.CaptureChecksThenBegins := by
  unfold Obligations.CaptureChecksThenBegins
  refine fun a s => ⟨fun unconfigured => ?_, fun configured unknown => ?_, fun d configured found => ?_⟩
  · exact execCapture_unconfigured s (by simp [unconfigured])
  · exact execCapture_unknown s configured unknown
  · exact execCapture_found s configured found

/-- An OK response carries its byte in a word of zeros (R52, R54). -/
theorem respond_ok_eq (s : State) (b : Byte) :
    s.respond .ok b = { s with responses := s.responses ++ [b.setWidth 16] } := by
  have word : responseWord .ok b = b.setWidth 16 := by simp [responseWord, portWord, Status.code]
  rw [State.respond, word]

/-- A frame byte that is there is answered (R86). -/
theorem execRdframe_of_read {s : State} {a b : Byte} (below : a.toNat < s.fLength) (inside : a.toNat < s.cfg.frameCap)
    (read : Memory.read s.fBytes a.toNat = some b) :
    execRdframe a s = .next { s with responses := s.responses ++ [b.setWidth 16] } := by
  rw [execRdframe_below s (by omega), (memRead_next s a.toNat b).2 ⟨inside, read⟩, andThen_value, respond_ok_eq]

/-- F.length lies inside the buffer (R12). -/
theorem State.Inv.fLength_le {s : State} (h : s.Inv) : s.fLength ≤ s.cfg.frameCap := by
  rcases h.length with zero | ⟨-, -, inside⟩ <;> omega

/-- Settles O12: at rest every byte below F.length is in the buffer, by the invariant. -/
theorem readFrameAnswersByte : Obligations.ReadFrameAnswersByte := by
  unfold Obligations.ReadFrameAnswersByte
  refine fun a s => ⟨execRdframe_above s, fun b => execRdframe_of_read, fun h rest below => ?_⟩
  obtain ⟨-, filled, -⟩ := h.atRest rest
  obtain ⟨b, read⟩ := Option.isSome_iff_exists.1 (filled a.toNat below)
  exact ⟨b, read, execRdframe_of_read below (by have := h.fLength_le; omega) read⟩

/-- A count of eight bits is the same number in a byte and in a response word. -/
theorem setWidth_countByte {n : Nat} (small : n ≤ 255) : (countByte n).setWidth 16 = BitVec.ofNat 16 n := by
  apply BitVec.eq_of_toNat_eq
  simp [countByte]
  omega

/-- Settles O13: each accessor responds OK with its register as a byte. -/
theorem accessorsAnswerRegisters : Obligations.AccessorsAnswerRegisters := by
  unfold Obligations.AccessorsAnswerRegisters
  refine fun s => ⟨fun small => ?_, ?_, ?_, fun flag => ?_, fun flag => ?_⟩
  · rw [exec, execRdlen, respond_ok_eq, setWidth_countByte small]
  · rw [exec, execRdrxcrc, respond_ok_eq]
  · rw [exec, execRdccrc, respond_ok_eq]
  · rw [exec, execRderr, respond_ok_eq, flag]; rfl
  · rw [exec, execRderr, respond_ok_eq, flag]; rfl

/-- Settles O14: CLRERR's meaning is these two updates of the record. -/
theorem clearErrorClearsFlagOnly : Obligations.ClearErrorClearsFlagOnly := by
  unfold Obligations.ClearErrorClearsFlagOnly
  exact fun s => rfl

/-! ### SETUP -/

/-- The word of `configure`: MODE in bit 0, the FIFO switch in bit 1 (R57, R144). -/
theorem requestOf_configure (cfg : Config) : requestOf (.tConfigure cfg.mode (fifoSwitch cfg)) =
    some (.transport (0xD000#16 ||| (if cfg.mode = .rxOnly then 0x0001#16 else 0x0000#16) |||
      (if cfg.discipline = .interrupt then 0x0002#16 else 0x0000#16))) := by
  unfold fifoSwitch
  cases cfg.mode <;> cases cfg.discipline <;> rfl

/-- The second step of SETUP: the transport's reply decides (R83). -/
theorem step_configure {s : State} {ts : List Turn} {b : Byte} {bs : List Byte} (stands : s.standsAt .configure)
    (turns : s.turns = .run :: ts) (replies : s.replies = b :: bs) : step s = .next { s with
      turns := ts
      replies := bs
      tqRd := b
      configured := if b.getLsbD 0 then true else s.configured
      trace := s.trace ++ [asked (.tConfigure s.cfg.mode (fifoSwitch s.cfg)) b]
      seq := .rest
      sreq := none
      responses := s.responses ++ [if b.getLsbD 0 then 0x0000#16 else 0x4000#16] } := by
  rw [step_asked stands rfl turns replies fun _ => rfl]
  simp only [seqResume, stands.seq, State.endSetup, replyBit0]
  split <;> rfl

/-- The first step of SETUP, from rest (R83). -/
theorem step_setup {s : State} {ws : List Word16} {ts : List Turn} (rest : s.atRest) (held : s.cmds = 0x1000#16 :: ws)
    (turns : s.turns = .run :: ts) : step s = execSetup { s with turns := ts, cmds := ws } := by
  have stepped := step_command (State.turn_of_turns turns) rest held (decodeHost_of_encode (i := .setup) rfl)
  rwa [State.afterTurn_of_turns turns] at stepped

/-- Settles O10: the operation by the check of the build, its run by the reply. -/
theorem setupConfiguresTransport : Obligations.SetupConfiguresTransport := by
  unfold Obligations.SetupConfiguresTransport
  refine ⟨fun s => ⟨fun ill => ?_, fun ok => ?_⟩,
    fun s ws ts b bs rest held => ⟨fun ill turns => ?_, fun ok turns replies => ?_⟩⟩
  · exact execSetup_illFormed s (by simp [ill])
  · rw [← requestOf_configure]
    exact execSetup_wellFormed s ok
  · exact runSteps_one _ _ ((step_setup rest held turns).trans (execSetup_illFormed _ (by simp [ill])))
  · have presented := (step_setup rest held turns).trans (execSetup_wellFormed _ ok)
    obtain ⟨hdl, noDelay, seq, sreq, -⟩ := rest
    have run := runSteps_then presented <| runSteps_one _ _ <|
      step_configure ⟨hdl, noDelay, rfl, rfl⟩ rfl replies
    simpa [fifoSwitch, seq, sreq] using run

end Sys2Proof.Machine
end

/-! Many bytes written one after the other (R31). -/
section
namespace Sys2Proof.Machine

/-- The buffer after these bytes are stored one by one, from address `k` on. -/
def Memory.writeAll (m : List Host.Cell) (k : Nat) : List Byte → List Host.Cell
  | [] => m
  | b :: bs => Memory.writeAll (Memory.write m k b) (k + 1) bs

/-- One more byte goes to the next address. -/
theorem Memory.writeAll_concat (bs : List Byte) (b : Byte) : ∀ (m : List Host.Cell) (k : Nat),
    Memory.writeAll m k (bs ++ [b]) = Memory.write (Memory.writeAll m k bs) (k + bs.length) b := by
  induction bs with
  | nil => exact fun _ _ => rfl
  | cons c bs ih =>
    intro m k
    rw [List.cons_append, Memory.writeAll, ih, Memory.writeAll, List.length_cons, Nat.add_assoc, Nat.add_comm 1]

/-- Below the first address nothing is written; from it on the bytes stand in order. -/
theorem Memory.read_writeAll (bs : List Byte) : ∀ (m : List Host.Cell) (k a : Nat),
    Memory.read (Memory.writeAll m k bs) a = if k ≤ a then bs[a - k]?.or (Memory.read m a) else Memory.read m a := by
  induction bs with
  | nil => simp [Memory.writeAll]
  | cons b bs ih =>
    intro m k a
    rw [Memory.writeAll, ih]
    rcases Nat.lt_trichotomy a k with below | rfl | above
    · rw [if_neg (by omega), if_neg (by omega), Memory.read_write_other m b (by omega)]
    · simp
    · obtain ⟨j, rfl⟩ := Nat.exists_eq_add_of_lt above
      rw [if_pos (by omega), if_pos (by omega), Memory.read_write_other m b (by omega),
        show k + j + 1 - k = j + 1 by omega, show k + j + 1 - (k + 1) = j by omega, List.getElem?_cons_succ]

/-- Stored from address 0 on, the buffer holds the bytes. -/
theorem Memory.holds_writeAll (m : List Host.Cell) (bs : List Byte) : Memory.holds (Memory.writeAll m 0 bs) m bs := by
  intro k
  rw [Memory.read_writeAll, if_pos (Nat.zero_le k), Nat.sub_zero]
  cases bs[k]? <;> rfl

end Sys2Proof.Machine
end

/-! The sequencer's program step by step: one lemma for each place a CAPTURE passes, and from these the runs of the
transitions (R101 to R111). -/
section
namespace Sys2Proof.Machine

theorem runs_add (m n : Nat) : runs (m + n) = runs m ++ runs n := List.replicate_add ..

theorem runs_add_two (n : Nat) : runs (n + 2) = .run :: runs n ++ [.run] := by
  rw [show n + 2 = 1 + n + 1 by omega, runs_add, runs_add]
  rfl

/-! ### From the acceptance to CS_ASSERTED -/

section
variable {s : State} {ts : List Turn}

/-- The acceptance of a CAPTURE that passes its checks (R84, R101). -/
theorem step_capture {a : Byte} {ws : List Word16} {d : Descriptor} (rest : s.atRest)
    (held : s.cmds = (0x2000#16 ||| a.setWidth 16) :: ws) (configured : s.configured = true)
    (found : s.cfg.cmd.lookup a = some d) (turns : s.turns = .run :: ts) :
    step s = .next (({ s with turns := ts, cmds := ws }.loadDescriptor a d).goTo .setWordCount) := by
  have stepped := step_command (State.turn_of_turns turns) rest held (decodeHost_of_encode (i := .capture a) rfl)
  rw [State.afterTurn_of_turns turns] at stepped
  exact stepped.trans (execCapture_found _ configured found)

theorem step_setWordCount_polling (stands : s.standsAt .setWordCount) (polling : s.cfg.discipline = .polling)
    (turns : s.turns = .run :: ts) :
    step s = .next ({ s with
      turns := ts
      trace := s.trace ++ [called (.tSetWordCount (countByte s.fLength))] }.goTo .enable) := by
  rw [step_called stands rfl turns fun _ => rfl]
  simp only [seqResume, stands.seq, polling]

theorem step_setWordCount_interrupt (stands : s.standsAt .setWordCount) (interrupt : s.cfg.discipline = .interrupt)
    (turns : s.turns = .run :: ts) :
    step s = .next ({ s with
      turns := ts
      trace := s.trace ++ [called (.tSetWordCount (countByte s.fLength))] }.goTo .setTrigger) := by
  rw [step_called stands rfl turns fun _ => rfl]
  simp only [seqResume, stands.seq, interrupt]

theorem step_setTrigger (stands : s.standsAt .setTrigger) (turns : s.turns = .run :: ts) :
    step s = .next ({ s with
      turns := ts
      trace := s.trace ++ [called (.tSetFifoTriggerLevel (countByte s.fLength))] }.goTo .enable) := by
  rw [step_called stands rfl turns fun _ => rfl]
  simp only [seqResume, stands.seq]

theorem step_enable (stands : s.standsAt .enable) (turns : s.turns = .run :: ts) :
    step s = .next ({ s with
      turns := ts
      trace := s.trace ++ [called .tEnable]
      pstate := .configured }.goTo .assertSelect) := by
  rw [step_called stands rfl turns fun _ => rfl]
  simp only [seqResume, stands.seq]

theorem step_assertSelect (stands : s.standsAt .assertSelect) (turns : s.turns = .run :: ts) :
    step s = .next ({ s with turns := ts, trace := s.trace ++ [called .tAssertSelect] }.goTo .waitTicks) := by
  rw [step_called stands rfl turns fun _ => rfl]
  simp only [seqResume, stands.seq]

/-- The delay request is out, and the sequencer waits for *done* (R102, R145). -/
theorem step_waitTicks (stands : s.standsAt .waitTicks) (turns : s.turns = .run :: ts) :
    step s = .next ({ s with
      turns := ts
      trace := s.trace ++ [called (.dWaitTicks s.dSettle)]
      delayBusy := true }.goTo .settle) := by
  rw [step_request stands rfl turns rfl, State.issue, State.context, if_pos stands.1]
  simp only [seqResume, stands.seq, called]

theorem step_delayDone_of_turns (turns : s.turns = .delayDone :: ts) :
    step s = .next { s with turns := ts, delayBusy := false } := by
  rw [step_delayDone s (State.turn_of_turns turns), State.afterTurn_of_turns turns, State.delayDone]

/-- The sequencer's turn at a place without a request. -/
theorem step_action {p : SeqPos} (stands : s.standsAt p) (noRequest : seqRequest s p = none) (flight : p ≠ .rest)
    (turns : s.turns = .run :: ts) : step s = seqAction { s with turns := ts } := by
  obtain ⟨hdl, noDelay, seq, presented⟩ := stands
  rw [noRequest] at presented
  have fetched : fetch { s with turns := ts } = .action := fetch_action _ hdl noDelay presented (seq ▸ flight)
  rw [step_run s (State.turn_of_turns turns), State.afterTurn_of_turns turns, runTurn_action _ fetched]
  exact action_sequencer _ hdl

theorem step_settle (stands : s.standsAt .settle) (turns : s.turns = .run :: ts) :
    step s = .next ({ s with turns := ts, pstate := .csAsserted }.goTo .opening) := by
  rw [step_action stands rfl (by simp) turns]
  simp only [seqAction, stands.seq]

/-- The registers at CS_ASSERTED in the transaction of command `a` (R101, R102), with the requests made so far. The
environment goes on with these words and moves. -/
def State.opened (s : State) (a : Byte) (d : Descriptor) (requests : List PortEvent) (ws : List Word16)
    (ts : List Turn) : State :=
  { s.loadDescriptor a d with
    turns := ts
    cmds := ws
    trace := s.trace ++ requests
    pstate := .csAsserted }

/-- Transition 1 in POLLING and transition 2 (R101, R102). -/
theorem runSteps_toOpening_polling {a : Byte} {ws : List Word16} {d : Descriptor} (rest : s.atRest)
    (held : s.cmds = (0x2000#16 ||| a.setWidth 16) :: ws) (configured : s.configured = true)
    (found : s.cfg.cmd.lookup a = some d) (polling : s.cfg.discipline = .polling)
    (turns : s.turns = runs 5 ++ [.delayDone, .run] ++ ts) :
    runSteps 7 s = .next ((s.opened a d [called (.tSetWordCount (countByte d.rlen)), called .tEnable,
      called .tAssertSelect, called (.dWaitTicks d.settle)] ws ts).goTo .opening) := by
  have hdl := rest.1
  have noDelay := rest.2.1
  have run := runSteps_then (step_capture rest held configured found turns) <|
    runSteps_then (step_setWordCount_polling ⟨hdl, noDelay, rfl, rfl⟩ polling rfl) <|
    runSteps_then (step_enable ⟨hdl, noDelay, rfl, rfl⟩ rfl) <|
    runSteps_then (step_assertSelect ⟨hdl, noDelay, rfl, rfl⟩ rfl) <|
    runSteps_then (step_waitTicks ⟨hdl, noDelay, rfl, rfl⟩ rfl) <|
    runSteps_then (step_delayDone_of_turns rfl) <|
    runSteps_one _ _ (step_settle ⟨hdl, rfl, rfl, rfl⟩ rfl)
  simpa [State.opened, State.goTo, seqRequest, noDelay] using run

/-- Transition 1 in INTERRUPT and transition 2 (R101, R102). -/
theorem runSteps_toOpening_interrupt {a : Byte} {ws : List Word16} {d : Descriptor} (rest : s.atRest)
    (held : s.cmds = (0x2000#16 ||| a.setWidth 16) :: ws) (configured : s.configured = true)
    (found : s.cfg.cmd.lookup a = some d) (interrupt : s.cfg.discipline = .interrupt)
    (turns : s.turns = runs 6 ++ [.delayDone, .run] ++ ts) :
    runSteps 8 s = .next ((s.opened a d [called (.tSetWordCount (countByte d.rlen)),
      called (.tSetFifoTriggerLevel (countByte d.rlen)), called .tEnable, called .tAssertSelect,
      called (.dWaitTicks d.settle)] ws ts).goTo .opening) := by
  have hdl := rest.1
  have noDelay := rest.2.1
  have run := runSteps_then (step_capture rest held configured found turns) <|
    runSteps_then (step_setWordCount_interrupt ⟨hdl, noDelay, rfl, rfl⟩ interrupt rfl) <|
    runSteps_then (step_setTrigger ⟨hdl, noDelay, rfl, rfl⟩ rfl) <|
    runSteps_then (step_enable ⟨hdl, noDelay, rfl, rfl⟩ rfl) <|
    runSteps_then (step_assertSelect ⟨hdl, noDelay, rfl, rfl⟩ rfl) <|
    runSteps_then (step_waitTicks ⟨hdl, noDelay, rfl, rfl⟩ rfl) <|
    runSteps_then (step_delayDone_of_turns rfl) <|
    runSteps_one _ _ (step_settle ⟨hdl, rfl, rfl, rfl⟩ rfl)
  simpa [State.opened, State.goTo, seqRequest, noDelay] using run

/-! ### The entry of transition 3 -/

/-- The registers at the entry of a polling transfer, before any request of it (R103, R105, R106). -/
def State.begun (s : State) (ts : List Turn) : State := { s with turns := ts, pstate := .transferring, idx := 0 }

theorem step_opening_txrx (stands : s.standsAt .opening) (polling : s.cfg.discipline = .polling)
    (txrx : s.cfg.mode = .txrx) (turns : s.turns = .run :: ts) :
    step s = .next (s.begun ts).nextByte := by
  rw [step_action stands rfl (by simp) turns]
  simp only [seqAction, stands.seq, State.openTransfer, polling, txrx, State.begun]

theorem step_opening_rxOnly (stands : s.standsAt .opening) (polling : s.cfg.discipline = .polling)
    (rxOnly : s.cfg.mode = .rxOnly) (turns : s.turns = .run :: ts) :
    step s = .next ((s.begun ts).goTo .transmit) := by
  rw [step_action stands rfl (by simp) turns]
  simp only [seqAction, stands.seq, State.openTransfer, polling, rxOnly, State.begun]

theorem step_opening_interrupt (stands : s.standsAt .opening) (interrupt : s.cfg.discipline = .interrupt)
    (turns : s.turns = .run :: ts) :
    step s = .next ({ s with turns := ts, pstate := .transferring, ready := false }.goTo .enableTx) := by
  rw [step_action stands rfl (by simp) turns]
  simp only [seqAction, stands.seq, State.openTransfer, interrupt]

/-! ### Where the polling transfer goes on -/

/-- Where the transfer goes on does not depend on the place it comes from. -/
theorem nextByte_placed (s : State) (p : SeqPos) (r : Option Request) :
    { s with seq := p, sreq := r }.nextByte = s.nextByte := rfl

theorem nextByte_complete (complete : s.fLength ≤ s.idx) : s.nextByte = s.goTo .deassertSelect := by
  rw [State.nextByte, if_pos complete]

theorem nextByte_txrx (more : s.idx < s.fLength) (txrx : s.cfg.mode = .txrx) : s.nextByte = s.goTo .transmit := by
  rw [State.nextByte, if_neg (by omega), txrx]

theorem nextByte_rxOnly_polled (more : s.idx < s.fLength) (rxOnly : s.cfg.mode = .rxOnly)
    (polled : s.idx + 1 = s.fLength → s.cfg.finalReadPoll = true) : s.nextByte = s.startWait .observe := by
  rw [State.nextByte, if_neg (by omega), rxOnly]
  exact if_neg fun final => by simp [polled final.1] at final

theorem nextByte_rxOnly_final (last : s.idx + 1 = s.fLength) (rxOnly : s.cfg.mode = .rxOnly)
    (noPoll : s.cfg.finalReadPoll = false) : s.nextByte = s.goTo .receive := by
  rw [State.nextByte, if_neg (by omega), rxOnly]
  exact if_pos ⟨last, noPoll⟩

/-! ### The requests of the polling transfer -/

theorem step_transmit_txrx (stands : s.standsAt .transmit) (txrx : s.cfg.mode = .txrx) (turns : s.turns = .run :: ts) :
    step s = .next ({ s with
      turns := ts
      trace := s.trace ++ [called (.tTransmit (txByte s s.idx))] }.startWait .observe) := by
  have place : seqRequest s .transmit = some (.tTransmit (txByte s s.idx)) := by simp [seqRequest, pollingByte, txrx]
  rw [step_called stands place turns fun _ => rfl]
  simp only [seqResume, stands.seq, State.afterTransmit, txrx]

theorem step_transmit_rxOnly (stands : s.standsAt .transmit) (rxOnly : s.cfg.mode = .rxOnly)
    (turns : s.turns = .run :: ts) :
    step s = .next { s with
      turns := ts
      trace := s.trace ++ [called (.tTransmit s.cfg.placeholder)] }.nextByte := by
  have place : seqRequest s .transmit = some (.tTransmit s.cfg.placeholder) := by
    simp [seqRequest, pollingByte, rxOnly]
  rw [step_called stands place turns fun _ => rfl]
  simp only [seqResume, stands.seq, State.afterTransmit, rxOnly]

theorem step_observe_done {b : Byte} {rs : List Byte} (stands : s.standsAt .observe) (turns : s.turns = .run :: ts)
    (replies : s.replies = b :: rs) (done : b.getLsbD 0 = true) :
    step s = .next ({ s with
      turns := ts
      replies := rs
      tqRd := b
      trace := s.trace ++ [asked .tTransferComplete b] }.goTo .receive) := by
  rw [step_asked stands rfl turns replies fun _ => rfl]
  simp only [seqResume, stands.seq, replyBit0, done, if_true]

/-- The sequencer stands where it is told to go. -/
theorem goTo_of_standsAt {p : SeqPos} (stands : s.standsAt p) : s.goTo p = s := by
  obtain ⟨-, -, seq, sreq⟩ := stands
  rw [State.goTo, ← seq, seq, ← sreq, ← seq]

/-- What a wait's counter is left at by `k` failed observations (R112). -/
def State.counted (s : State) (k : Nat) : Nat :=
  if s.cfg.waitLimit.isSome then s.wcnt + k else s.wcnt

theorem counted_le (s : State) (k : Nat) : s.counted k ≤ s.wcnt + k := by
  unfold State.counted
  split <;> omega

/-- A failed observation below the limit is counted, if there is one, and the sequencer stays where it is (R112). -/
theorem failedObservation_stays {p : SeqPos} (stands : s.standsAt p)
    (left : ∀ n, s.cfg.waitLimit = some n → s.wcnt + 1 < n) : s.failedObservation p =
      { s with wcnt := s.counted 1 } := by
  cases limit : s.cfg.waitLimit with
  | none =>
    rw [failedObservation_unbounded s p limit, goTo_of_standsAt stands]
    simp [State.counted, limit]
  | some n =>
    have below := left n limit
    have counted : { s with wcnt := s.wcnt + 1 }.standsAt p :=
      ⟨stands.1, stands.2.1, stands.2.2.1, stands.2.2.2.trans <|
        congrArg (Option.bind · requestOf) (seqRequest_congr rfl rfl rfl rfl rfl rfl p).symm⟩
    rw [failedObservation_again s p n limit (by omega), goTo_of_standsAt counted]
    simp [State.counted, limit]

theorem seqResume_observe_failed (stands : s.standsAt .observe) (failed : replyBit0 s.tqRd = false)
    (left : ∀ n, s.cfg.waitLimit = some n → s.wcnt + 1 < n) : seqResume s =
      .next { s with wcnt := s.counted 1 } := by
  simp only [seqResume, stands.seq, failed, Bool.false_eq_true, if_false]
  rw [failedObservation_stays stands left, stands.seq]

theorem step_observe_failed {b : Byte} {rs : List Byte} (stands : s.standsAt .observe) (turns : s.turns = .run :: ts)
    (replies : s.replies = b :: rs) (failed : b.getLsbD 0 = false)
    (left : ∀ n, s.cfg.waitLimit = some n → s.wcnt + 1 < n) :
    step s = .next { s with
      turns := ts
      replies := rs
      tqRd := b
      wcnt := s.counted 1
      trace := s.trace ++ [asked .tTransferComplete b] } := by
  rw [step_asked stands rfl turns replies fun _ => rfl]
  exact seqResume_observe_failed stands failed left

/-- Failed status reads are made again, each counted if there is a limit (R112). -/
theorem runSteps_failedReads (fs : List Byte) : ∀ {s : State} {ts : List Turn} {rs : List Byte},
    s.standsAt .observe → (∀ b ∈ fs, b.getLsbD 0 = false) → s.turns = runs fs.length ++ ts →
    s.replies = fs ++ rs →
    (∀ n, s.cfg.waitLimit = some n → s.wcnt + fs.length < n) →
    runSteps fs.length s = .next { s with
      turns := ts
      replies := rs
      tqRd := fs.getLast?.getD s.tqRd
      wcnt := s.counted fs.length
      trace := s.trace ++ fs.map (asked .tTransferComplete) } := by
  induction fs with
  | nil =>
    intro s ts rs _ _ turns replies _
    simp only [runs, List.length_nil, List.replicate_zero, List.nil_append] at turns replies
    simp [State.counted, ← turns, ← replies]
  | cons b fs ih =>
    intro s ts rs stands failed turns replies left
    have again := step_observe_failed (rs := fs ++ rs) stands turns replies (failed b (by simp)) (by
      intro n limit
      have := left n limit
      simp only [List.length_cons] at this
      omega)
    refine runSteps_then again ((ih ?_ ?_ rfl rfl ?_).trans ?_)
    · exact stands
    · exact fun x hx => failed x (by simp [hx])
    · intro n limit
      have := left n limit
      simp only [List.length_cons] at this
      simp only at limit ⊢
      simp only [State.counted, limit, Option.isSome_some, if_true]
      omega
    · cases limit : s.cfg.waitLimit <;> simp [State.counted, limit, List.getLast?_cons]
      omega

theorem step_receive {b : Byte} {rs : List Byte} (stands : s.standsAt .receive) (inside : s.idx < s.cfg.frameCap)
    (turns : s.turns = .run :: ts) (replies : s.replies = b :: rs) :
    step s = .next { s with
      turns := ts
      replies := rs
      tqRd := b
      fBytes := Memory.write s.fBytes s.idx b
      idx := s.idx + 1
      trace := s.trace ++ [asked .tReceive b] }.nextByte := by
  rw [step_asked stands rfl turns replies fun _ => rfl]
  simp only [seqResume, stands.seq, storeReceived, memWrite, inside, if_true, andThen_value]

/-- The registers once a word is received, with the requests made for it: its byte is stored at `idx`, and the wait's
counter holds its failed reads if there is a limit. The environment goes on with these moves and replies. -/
def State.received (s : State) (w : WordReplies) (requests : List PortEvent) (ts : List Turn) (rs : List Byte) :
    State :=
  { s with
    turns := ts
    replies := rs
    tqRd := w.byte
    fBytes := Memory.write s.fBytes s.idx w.byte
    idx := s.idx + 1
    wcnt := if s.cfg.waitLimit.isSome then w.failed.length else 0
    trace := s.trace ++ requests }

/-- The status reads of a word, its receive and its store, from the start of its wait (R105 to R107, R112). -/
theorem runSteps_word {w : WordReplies} {rs : List Byte} (hdl : s.hdl = .idle) (noDelay : s.delayBusy = false)
    (inside : s.idx < s.cfg.frameCap) (valid : w.valid s.cfg.waitLimit)
    (turns : s.turns = runs (w.failed.length + 2) ++ ts) (replies : s.replies = w.replies ++ rs) :
    runSteps (w.failed.length + 2) (s.startWait .observe) =
      .next (s.received w (w.statusReads ++ [asked .tReceive w.byte]) ts rs).nextByte := by
  obtain ⟨failed, done, left⟩ := valid
  have run := runSteps_append
    (runSteps_failedReads w.failed (s := s.startWait .observe) (ts := runs 2 ++ ts) (rs := [w.done, w.byte] ++ rs)
      ⟨hdl, noDelay, rfl, rfl⟩ failed (by simpa [State.startWait, runs_add] using turns)
      (by simpa [State.startWait, WordReplies.replies] using replies) (by simpa [State.startWait] using left)) <|
    runSteps_then (step_observe_done ⟨hdl, noDelay, rfl, rfl⟩ rfl rfl done) <|
    runSteps_one _ _ (step_receive ⟨hdl, noDelay, rfl, rfl⟩ inside rfl rfl)
  refine run.trans (congrArg Host.Outcome.next ((nextByte_placed _ s.seq s.sreq).symm.trans ?_))
  simp [State.received, State.startWait, State.counted, WordReplies.statusReads]

/-! ### Many words of the polling transfer -/

/-- What a build sends before the wait of a word that is not the frame's first: a transmit of its own in TXRX, nothing
in RX_ONLY (R105, R106). -/
def wordCalls (cfg : Config) : List PortEvent :=
  match cfg.mode with
  | .txrx => [called (.tTransmit cfg.placeholder)]
  | .rxOnly => []

/-- The requests of a word that is not the frame's first. -/
def WordReplies.events (cfg : Config) (w : WordReplies) : List PortEvent :=
  wordCalls cfg ++ w.statusReads ++ [asked .tReceive w.byte]

/-- The steps of a word: one for each of its requests. -/
def WordReplies.steps (cfg : Config) (w : WordReplies) : Nat := (wordCalls cfg).length + (w.failed.length + 2)

theorem WordReplies.steps_txrx {cfg : Config} (txrx : cfg.mode = .txrx) (w : WordReplies) :
    w.steps cfg = w.failed.length + 3 := by
  simp [WordReplies.steps, wordCalls, txrx]
  omega

theorem WordReplies.events_txrx {cfg : Config} (txrx : cfg.mode = .txrx) (w : WordReplies) :
    w.events cfg = w.exchange cfg.placeholder := by
  simp [WordReplies.events, WordReplies.exchange, wordCalls, txrx]

theorem WordReplies.steps_rxOnly {cfg : Config} (rxOnly : cfg.mode = .rxOnly) (w : WordReplies) :
    w.steps cfg = w.failed.length + 2 := by
  simp [WordReplies.steps, wordCalls, rxOnly]

theorem WordReplies.events_rxOnly {cfg : Config} (rxOnly : cfg.mode = .rxOnly) (w : WordReplies) :
    w.events cfg = w.statusReads ++ [asked .tReceive w.byte] := by
  simp [WordReplies.events, wordCalls, rxOnly]

/-- An exchange of TXRX, from the end of the word before it (R105). -/
theorem runSteps_exchange {w : WordReplies} {rs : List Byte} (hdl : s.hdl = .idle) (noDelay : s.delayBusy = false)
    (txrx : s.cfg.mode = .txrx) (more : s.idx < s.fLength) (inside : s.fLength ≤ s.cfg.frameCap)
    (valid : w.valid s.cfg.waitLimit) (turns : s.turns = runs (w.failed.length + 3) ++ ts)
    (replies : s.replies = w.replies ++ rs) :
    runSteps (w.failed.length + 3) s.nextByte =
      .next (s.received w (w.exchange (txByte s s.idx)) ts rs).nextByte := by
  rw [nextByte_txrx more txrx]
  have run := runSteps_then (step_transmit_txrx (s := s.goTo .transmit) ⟨hdl, noDelay, rfl, rfl⟩ txrx turns) <|
    runSteps_word hdl noDelay (show s.idx < s.cfg.frameCap by omega) valid rfl replies
  refine run.trans (congrArg Host.Outcome.next ((nextByte_placed _ s.seq s.sreq).symm.trans ?_))
  simp only [State.received, WordReplies.exchange, List.append_assoc, List.cons_append, List.nil_append]
  rfl

/-- A word that is not the first, from the end of the word before it; in RX_ONLY the last word has a wait under
FINAL_READ_POLL alone (R105 to R107). -/
theorem runSteps_nextWord {w : WordReplies} {rs : List Byte} (hdl : s.hdl = .idle) (noDelay : s.delayBusy = false)
    (more : s.idx < s.fLength) (inside : s.fLength ≤ s.cfg.frameCap) (later : s.cfg.mode = .txrx → 0 < s.idx)
    (polled : s.cfg.mode = .rxOnly → s.idx + 1 = s.fLength → s.cfg.finalReadPoll = true)
    (valid : w.valid s.cfg.waitLimit) (turns : s.turns = runs (w.steps s.cfg) ++ ts)
    (replies : s.replies = w.replies ++ rs) :
    runSteps (w.steps s.cfg) s.nextByte = .next (s.received w (w.events s.cfg) ts rs).nextByte := by
  cases mode : s.cfg.mode with
  | txrx =>
    have sent : txByte s s.idx = s.cfg.placeholder := if_neg (by have := later mode; omega)
    rw [w.steps_txrx mode] at turns ⊢
    rw [w.events_txrx mode, ← sent]
    exact runSteps_exchange hdl noDelay mode more inside valid turns replies
  | rxOnly =>
    rw [w.steps_rxOnly mode] at turns ⊢
    rw [w.events_rxOnly mode, nextByte_rxOnly_polled more mode (polled mode)]
    exact runSteps_word hdl noDelay (by omega) valid turns replies

/-- The words of a polling transfer but its first, and in RX_ONLY but a last one read without a wait, from the end of
the word before them. -/
theorem runSteps_words (ws : List WordReplies) : ∀ {s : State} {ts : List Turn} {rs : List Byte},
    s.hdl = .idle → s.delayBusy = false → s.idx + ws.length ≤ s.fLength → s.fLength ≤ s.cfg.frameCap →
    (s.cfg.mode = .txrx → 0 < s.idx) →
    (s.cfg.mode = .rxOnly → s.idx + ws.length = s.fLength → s.cfg.finalReadPoll = true) →
    (∀ w ∈ ws, w.valid s.cfg.waitLimit) → s.turns = runs (ws.map (WordReplies.steps s.cfg)).sum ++ ts →
    s.replies = ws.flatMap WordReplies.replies ++ rs →
    ∃ q n, runSteps (ws.map (WordReplies.steps s.cfg)).sum s.nextByte = .next { s with
      turns := ts
      replies := rs
      tqRd := q
      fBytes := Memory.writeAll s.fBytes s.idx (ws.map WordReplies.byte)
      idx := s.idx + ws.length
      wcnt := n
      trace := s.trace ++ ws.flatMap (WordReplies.events s.cfg) }.nextByte := by
  induction ws with
  | nil =>
    intro s ts rs _ _ _ _ _ _ _ turns replies
    obtain rfl : s.turns = ts := by simpa [runs] using turns
    obtain rfl : s.replies = rs := by simpa using replies
    exact ⟨s.tqRd, s.wcnt, by simp [Memory.writeAll]⟩
  | cons w ws ih =>
    intro s ts rs hdl noDelay more inside later polled valid turns replies
    simp only [List.length_cons] at more polled
    have first := runSteps_nextWord hdl noDelay (by omega) inside later (fun mode last => polled mode (by omega))
      (valid w (by simp)) (ts := runs (ws.map (WordReplies.steps s.cfg)).sum ++ ts) (by simpa [runs_add] using turns)
      (rs := ws.flatMap WordReplies.replies ++ rs) (by simpa using replies)
    obtain ⟨q, n, others⟩ := ih (s := s.received w (w.events s.cfg)
      (runs (ws.map (WordReplies.steps s.cfg)).sum ++ ts)
      (ws.flatMap WordReplies.replies ++ rs)) hdl noDelay (show s.idx + 1 + ws.length ≤ s.fLength by omega) inside
      (fun _ => Nat.succ_pos s.idx) (fun mode last => polled mode (by simp only [State.received] at last; omega))
      (fun x hx => valid x (by simp [hx])) rfl rfl
    refine ⟨q, n, ?_⟩
    simpa [State.received, Memory.writeAll, Nat.add_comm 1, Nat.add_assoc] using runSteps_append first others

/-! ### Transitions 4 and 5 -/

theorem step_deassertSelect (stands : s.standsAt .deassertSelect) (turns : s.turns = .run :: ts) :
    step s = .next ({ s with turns := ts, trace := s.trace ++ [called .tDeassertSelect] }.goTo .disable) := by
  rw [step_called stands rfl turns fun _ => rfl]
  simp only [seqResume, stands.seq]

theorem step_disable (stands : s.standsAt .disable) (turns : s.turns = .run :: ts) :
    step s = .next ({ s with
      turns := ts
      trace := s.trace ++ [called .tDisable]
      pstate := .csDeasserted }.goTo .validate) := by
  rw [step_called stands rfl turns fun _ => rfl]
  simp only [seqResume, stands.seq]

/-- The check of a frame the buffer holds, and the VALIDATED it leads to (R75, R111). -/
theorem seqValidate_of_holds {bytes : List Byte} {old : List Host.Cell} (long : 2 ≤ bytes.length)
    (len : s.fLength = bytes.length) (inside : s.fLength ≤ s.cfg.frameCap) (holds : Memory.holds s.fBytes old bytes) :
    seqValidate s = .next ({ s.recordCheck (~~~(bytes.getLast?.getD 0#8)) (crcTextbook bytes.dropLast) with
      pstate := .validated }.goTo .respond) := by
  obtain ⟨payload, last, rfl⟩ := (List.eq_nil_or_concat bytes).resolve_left (by rintro rfl; simp at long)
  simp only [List.concat_eq_append, List.length_append, List.length_singleton] at *
  have filled : payload ≠ [] := by
    rintro rfl
    simp at long
  rw [seqValidate, validate_of_holds filled len inside holds, andThen_value]
  simp

theorem seqAction_validate (seq : s.seq = .validate) : seqAction s = seqValidate s := by
  simp only [seqAction, seq]

theorem step_validate {bytes : List Byte} {old : List Host.Cell} (stands : s.standsAt .validate)
    (long : 2 ≤ bytes.length) (len : s.fLength = bytes.length) (inside : s.fLength ≤ s.cfg.frameCap)
    (holds : Memory.holds s.fBytes old bytes) (turns : s.turns = .run :: ts) :
    step s = .next ({ s.recordCheck (~~~(bytes.getLast?.getD 0#8)) (crcTextbook bytes.dropLast) with
      turns := ts
      pstate := .validated }.goTo .respond) :=
  (step_action stands rfl (by simp) turns).trans <|
    (seqAction_validate (s := { s with turns := ts }) stands.seq).trans <| seqValidate_of_holds long len inside holds

theorem step_respond (stands : s.standsAt .respond) (turns : s.turns = .run :: ts) :
    step s = .next ({ s with turns := ts }.endCapture) := by
  rw [step_action stands rfl (by simp) turns]
  simp only [seqAction, stands.seq]

/-- The block at rest once these bytes, the frame received, are checked and answered (R110, R111). -/
def State.answered (s : State) (bytes : List Byte) : State :=
  { s with
    trace := s.trace ++ [called .tDeassertSelect, called .tDisable]
    receivedCRC := ~~~(bytes.getLast?.getD 0#8)
    computedCRC := crcTextbook bytes.dropLast
    errorFlag := stickyAfter s.errorFlag (frameVerdict bytes)
    pstate := .idle
    seq := .rest
    sreq := none
    responses := s.responses ++ [if frameVerdict bytes = .ok then 0x0000#16 else 0x1000#16] }

/-- Transitions 4 and 5 on a frame the buffer holds (R110, R111). -/
theorem runSteps_answered {bytes : List Byte} {old : List Host.Cell} (hdl : s.hdl = .idle)
    (noDelay : s.delayBusy = false) (long : 2 ≤ bytes.length) (len : s.fLength = bytes.length)
    (inside : s.fLength ≤ s.cfg.frameCap) (holds : Memory.holds s.fBytes old bytes) (turns : s.turns = runs 4 ++ ts) :
    runSteps 4 (s.goTo .deassertSelect) = .next ({ s with turns := ts }.answered bytes) := by
  have run := runSteps_then (step_deassertSelect (s := s.goTo .deassertSelect) ⟨hdl, noDelay, rfl, rfl⟩ turns) <|
    runSteps_then (step_disable ⟨hdl, noDelay, rfl, rfl⟩ rfl) <|
    runSteps_then (step_validate ⟨hdl, noDelay, rfl, rfl⟩ long len inside holds rfl) <|
    runSteps_one _ _ (step_respond ⟨hdl, noDelay, rfl, rfl⟩ rfl)
  have status (v : Verdict) : responseWord (verdictStatus v) 0x00#8 = if v = .ok then 0x0000#16 else 0x1000#16 := by
    cases v <;> rfl
  refine run.trans ?_
  simp [State.endCapture, State.retire, State.goTo, seqRequest, State.respond, status, State.answered, frameVerdict,
    verdictOf]

end

end Sys2Proof.Machine
end

/-! Proofs of O33 and O34: the body of a polling transfer in each channel mode, and the run of a CAPTURE around it. -/
section
namespace Sys2Proof.Machine

/-- The registers after a polling transfer of these bytes, with the requests made for it (R105 to R107). The environment
goes on with these moves and replies; `q` is the last reply and `n` what the wait's counter is left at. -/
def State.transferred (s : State) (bytes : List Byte) (requests : List PortEvent) (ts : List Turn) (rs : List Byte)
    (q : Byte) (n : Nat) : State :=
  { s with
    turns := ts
    replies := rs
    tqRd := q
    fBytes := Memory.writeAll s.fBytes 0 bytes
    idx := bytes.length
    wcnt := n
    trace := s.trace ++ requests }

section
variable {s : State} {ts : List Turn} {rs : List Byte}

/-! ### The transfer in TXRX -/

/-- The exchanges of a frame (R105): the first carries `txbyte(0)`, the others the placeholder. -/
theorem runSteps_frameTxrx {w : WordReplies} {more : List WordReplies} {b : Byte} (sent : txByte s 0 = b)
    (hdl : s.hdl = .idle) (noDelay : s.delayBusy = false) (txrx : s.cfg.mode = .txrx) (idx : s.idx = 0)
    (len : (w :: more).length = s.fLength) (inside : s.fLength ≤ s.cfg.frameCap)
    (valid : ∀ x ∈ w :: more, x.valid s.cfg.waitLimit)
    (turns : s.turns = runs ((w :: more).map fun x => x.failed.length + 3).sum ++ ts)
    (replies : s.replies = (w :: more).flatMap WordReplies.replies ++ rs) :
    ∃ q n, runSteps ((w :: more).map fun x => x.failed.length + 3).sum s.nextByte =
      .next ((s.transferred ((w :: more).map WordReplies.byte)
        (w.exchange b ++ more.flatMap fun x => x.exchange s.cfg.placeholder) ts rs q n).goTo
          .deassertSelect) := by
  have cost : (more.map fun x => x.failed.length + 3) = more.map (WordReplies.steps s.cfg) :=
    List.map_congr_left fun x _ => (x.steps_txrx txrx).symm
  have requests : (more.flatMap fun x => x.exchange s.cfg.placeholder) = more.flatMap (WordReplies.events s.cfg) :=
    List.flatMap_congr fun x _ => (x.events_txrx txrx).symm
  simp only [List.map_cons, List.sum_cons, List.length_cons, cost, requests] at len turns ⊢
  have first := runSteps_exchange hdl noDelay txrx (by omega) inside (valid w (by simp))
    (ts := runs (more.map (WordReplies.steps s.cfg)).sum ++ ts) (by simpa [runs_add] using turns)
    (rs := more.flatMap WordReplies.replies ++ rs) (by simpa using replies)
  obtain ⟨q, n, others⟩ := runSteps_words more (s := s.received w (w.exchange (txByte s s.idx))
      (runs (more.map (WordReplies.steps s.cfg)).sum ++ ts) (more.flatMap WordReplies.replies ++ rs))
    hdl noDelay (show s.idx + 1 + more.length ≤ s.fLength by omega) inside (fun _ => Nat.succ_pos s.idx)
    (fun rxOnly => nomatch txrx.symm.trans rxOnly) (fun x hx => valid x (by simp [hx])) rfl rfl
  refine ⟨q, n, (runSteps_append first others).trans ?_⟩
  rw [nextByte_complete (show s.fLength ≤ s.idx + 1 + more.length by omega)]
  simp [State.transferred, State.received, idx, sent, Memory.writeAll, Nat.add_comm 1]

/-! ### The transfer in RX_ONLY -/

/-- The words of RX_ONLY that have a wait, after the fill (R106, R107): all of the frame, or all but a last one read
without a wait. -/
theorem runSteps_polledWords {ws : List WordReplies} (hdl : s.hdl = .idle) (noDelay : s.delayBusy = false)
    (rxOnly : s.cfg.mode = .rxOnly) (idx : s.idx = 0) (len : ws.length ≤ s.fLength)
    (inside : s.fLength ≤ s.cfg.frameCap) (polled : ws.length = s.fLength → s.cfg.finalReadPoll = true)
    (valid : ∀ x ∈ ws, x.valid s.cfg.waitLimit)
    (turns : s.turns = .run :: runs (ws.map fun x => x.failed.length + 2).sum ++ ts)
    (replies : s.replies = ws.flatMap WordReplies.replies ++ rs) :
    ∃ q n, runSteps ((ws.map fun x => x.failed.length + 2).sum + 1) (s.goTo .transmit) =
      .next (s.transferred (ws.map WordReplies.byte)
        (called (.tTransmit s.cfg.placeholder) :: ws.flatMap fun x => x.statusReads ++ [asked .tReceive x.byte])
          ts rs q n).nextByte := by
  have cost : (ws.map fun x => x.failed.length + 2) = ws.map (WordReplies.steps s.cfg) :=
    List.map_congr_left fun x _ => (x.steps_rxOnly rxOnly).symm
  have requests : (ws.flatMap fun x => x.statusReads ++ [asked .tReceive x.byte]) =
      ws.flatMap (WordReplies.events s.cfg) := List.flatMap_congr fun x _ => (x.events_rxOnly rxOnly).symm
  rw [cost] at turns ⊢
  rw [requests]
  have filled := step_transmit_rxOnly (s := s.goTo .transmit) ⟨hdl, noDelay, rfl, rfl⟩ rxOnly turns
  obtain ⟨q, n, words⟩ := runSteps_words ws (s := { s with
      turns := runs (ws.map (WordReplies.steps s.cfg)).sum ++ ts
      trace := s.trace ++ [called (.tTransmit s.cfg.placeholder)] }) hdl noDelay (by simpa [idx] using len) inside
    (fun txrx => nomatch rxOnly.symm.trans txrx) (fun _ full => polled (by simpa [idx] using full)) valid rfl replies
  refine ⟨q, n, (runSteps_then filled words).trans ?_⟩
  simp [State.transferred, idx]

/-- The last word of a frame, read without a wait (R107). -/
theorem step_finalRead {b : Byte} (hdl : s.hdl = .idle) (noDelay : s.delayBusy = false) (rxOnly : s.cfg.mode = .rxOnly)
    (noPoll : s.cfg.finalReadPoll = false) (last : s.idx + 1 = s.fLength) (inside : s.fLength ≤ s.cfg.frameCap)
    (turns : s.turns = .run :: ts) (replies : s.replies = b :: rs) :
    step s.nextByte = .next ({ s with
      turns := ts
      replies := rs
      tqRd := b
      fBytes := Memory.write s.fBytes s.idx b
      idx := s.idx + 1
      trace := s.trace ++ [asked .tReceive b] }.goTo .deassertSelect) := by
  rw [nextByte_rxOnly_final last rxOnly noPoll,
    step_receive (s := s.goTo .receive) ⟨hdl, noDelay, rfl, rfl⟩ (show s.idx < s.cfg.frameCap by omega) turns
      replies,
    nextByte_complete (show s.fLength ≤ s.idx + 1 by omega)]
  rfl

/-- The fill and the words of a frame (R106, R107), the last one read without a wait unless FINAL_READ_POLL. -/
theorem runSteps_frameRxOnly {loop : List WordReplies} {final : WordReplies} {poll : Bool} (hdl : s.hdl = .idle)
    (noDelay : s.delayBusy = false) (rxOnly : s.cfg.mode = .rxOnly)
    (finalPoll : s.cfg.finalReadPoll = poll) (idx : s.idx = 0) (len : loop.length + 1 = s.fLength)
    (inside : s.fLength ≤ s.cfg.frameCap) (valid : ∀ x ∈ loop ++ [final], x.valid s.cfg.waitLimit)
    (turns : s.turns = runs ((loop.map fun x => x.failed.length + 2).sum +
      (if poll then final.failed.length + 1 else 0) + 2) ++ ts)
    (replies : s.replies = loop.flatMap WordReplies.replies ++
      (if poll then final.failed ++ [final.done] else []) ++ final.byte :: rs) :
    ∃ q n, runSteps ((loop.map fun x => x.failed.length + 2).sum +
      (if poll then final.failed.length + 1 else 0) + 2) (s.goTo .transmit) =
      .next ((s.transferred ((loop ++ [final]).map WordReplies.byte)
        (called (.tTransmit s.cfg.placeholder) ::
          loop.flatMap (fun x => x.statusReads ++ [asked .tReceive x.byte]) ++
          (if poll then final.statusReads else []) ++ [asked .tReceive final.byte]) ts rs q n).goTo
          .deassertSelect) := by
  cases poll with
  | true =>
    simp only [if_true] at turns replies ⊢
    have total : (loop.map fun x => x.failed.length + 2).sum + (final.failed.length + 1) + 2 =
      ((loop ++ [final]).map fun x => x.failed.length + 2).sum + 1 := by simp; omega
    rw [total] at turns ⊢
    obtain ⟨q, n, words⟩ := runSteps_polledWords (ws := loop ++ [final]) hdl noDelay rxOnly idx (by simp; omega)
      inside (fun _ => finalPoll) valid turns (rs := rs) (by simpa [WordReplies.replies] using replies)
    refine ⟨q, n, words.trans ?_⟩
    rw [nextByte_complete (by simp [State.transferred]; omega)]
    simp
  | false =>
    simp only [Bool.false_eq_true, if_false, Nat.add_zero, List.append_nil] at turns replies ⊢
    obtain ⟨q, n, words⟩ := runSteps_polledWords (ws := loop) hdl noDelay rxOnly idx (by omega) inside (by omega)
      (fun x hx => valid x (by simp [hx])) (ts := .run :: ts)
      (by simp [turns, runs_add_two]) replies
    refine ⟨final.byte, n, (runSteps_append words <| runSteps_one _ _ <| step_finalRead hdl noDelay rxOnly finalPoll
      (by simpa [State.transferred] using len) inside rfl rfl).trans ?_⟩
    simp [State.transferred, Memory.writeAll_concat]

end

/-! ### The run of a CAPTURE around its transfer -/

/-- The invariant holds at the end of a run (R26). -/
theorem State.Inv.runSteps_inv {n : Nat} {s t : State} (h : s.Inv) (run : runSteps n s = .next t) : t.Inv := by
  induction n generalizing s with
  | zero =>
    obtain rfl : s = t := by simpa using run
    exact h
  | succ n ih =>
    obtain ⟨u, stepped, inv⟩ := h.step_inv
    exact ih inv ((runSteps_succ n s u stepped).symm.trans run)

/-- The run of a CAPTURE in POLLING, from acceptance to response, once its transfer is known (R84, R101 to R103, R110,
R111). -/
theorem capture_polling {s : State} {a : Byte} {cs : List Word16} {d : Descriptor} {bytes : List Byte}
    {requests : List PortEvent} {k : Nat} {ts : List Turn} {rs : List Byte} (h : s.Inv) (rest : s.atRest)
    (held : s.cmds = (0x2000#16 ||| a.setWidth 16) :: cs) (configured : s.configured = true)
    (found : s.cfg.cmd.lookup a = some d) (polling : s.cfg.discipline = .polling) (len : bytes.length = d.rlen)
    (turns : s.turns = runs 5 ++ .delayDone :: runs (k + 6) ++ ts)
    (transfer : ∀ u : State, u = s.opened a d [called (.tSetWordCount (countByte d.rlen)), called .tEnable,
        called .tAssertSelect, called (.dWaitTicks d.settle)] cs (.run :: runs k ++ (runs 4 ++ ts)) →
      2 ≤ d.rlen → d.rlen ≤ s.cfg.frameCap → ∃ q n, runSteps (k + 1) (u.goTo .opening) =
        .next (((u.begun (runs 4 ++ ts)).transferred bytes requests (runs 4 ++ ts) rs q n).goTo .deassertSelect)) :
    ∃ t, runSteps (k + 12) s = .next t ∧
      t.trace = s.trace ++ [called (.tSetWordCount (BitVec.ofNat 8 d.rlen)), called .tEnable, called .tAssertSelect,
          called (.dWaitTicks d.settle)] ++ requests ++ [called .tDeassertSelect, called .tDisable] ∧
      Memory.holds t.fBytes s.fBytes bytes ∧ t.fLength = d.rlen ∧
      t.receivedCRC = ~~~(bytes.getLast?.getD 0#8) ∧ t.computedCRC = crcTextbook bytes.dropLast ∧
      t.errorFlag = stickyAfter s.errorFlag (frameVerdict bytes) ∧
      t.responses = s.responses ++ [if frameVerdict bytes = .ok then 0x0000#16 else 0x1000#16] ∧
      t.atRest ∧ t.Inv ∧ t.turns = ts ∧ t.replies = rs ∧ t.cmds = cs ∧ t.cfg = s.cfg ∧
      t.configured = true ∧ t.ready = s.ready ∧ t.armTx = s.armTx ∧ t.armRx = s.armRx := by
  obtain ⟨long, inside, -⟩ := cfgOk_descriptor (h.configuredOk configured) found
  have opened := runSteps_toOpening_polling rest held configured found polling
    (ts := .run :: runs k ++ (runs 4 ++ ts)) (by
      rw [turns, show k + 6 = 2 + k + 4 by omega, runs_add, runs_add]
      simp [runs])
  obtain ⟨q, n, moved⟩ := transfer _ rfl long inside
  have run := runSteps_append opened <| runSteps_append moved <|
    runSteps_answered rest.1 rest.2.1 (by omega) len.symm inside (Memory.holds_writeAll s.fBytes bytes) rfl
  rw [show 7 + (k + 1 + 4) = k + 12 by omega] at run
  refine ⟨_, run, ?_, Memory.holds_writeAll s.fBytes bytes, rfl, rfl, rfl, rfl, rfl,
    ⟨rest.1, rest.2.1, rfl, rfl, rfl⟩,
    h.runSteps_inv run, rfl, rfl, rfl, rfl, configured, rfl, rfl, rfl⟩
  simp [State.answered, State.transferred, State.begun, State.opened, countByte]

/-- The first byte of TXRX is the command's, if it has one (R101, R104). -/
theorem txByte_opened (s : State) (a : Byte) (d : Descriptor) (requests : List PortEvent) (ws : List Word16)
    (ts : List Turn) : txByte (s.opened a d requests ws ts) 0 = d.code.getD s.cfg.placeholder := by
  simp only [txByte, State.opened, State.loadDescriptor]
  cases d.code <;> rfl

/-- Settles O33: the transfer is the exchanges of the frame. -/
theorem captureRunsTxrx : Obligations.CaptureRunsTxrx := by
  unfold Obligations.CaptureRunsTxrx
  intro s a cs d w more ts rs h rest held configured found polling txrx len valid turns replies
  obtain ⟨t, run, trace, holds, length, received, computed, others⟩ := capture_polling (rs := rs)
    (bytes := (w :: more).map WordReplies.byte)
    (requests := w.exchange (d.code.getD s.cfg.placeholder) ++ more.flatMap fun x => x.exchange s.cfg.placeholder)
    h rest held configured found polling (by simpa using len) turns (by
      rintro u rfl - inside
      obtain ⟨q, n, exchanges⟩ := runSteps_frameTxrx (s := ((s.opened a d _ cs _).goTo .opening).begun _)
        (txByte_opened s a d [] cs []) rest.1 rest.2.1 txrx rfl len inside valid (ts := runs 4 ++ ts) rfl replies
      exact ⟨q, n, runSteps_then (step_opening_txrx ⟨rest.1, rest.2.1, rfl, rfl⟩ polling txrx rfl) exchanges⟩)
  refine ⟨t, run, ?_, holds, length, ?_, computed, others⟩
  · simpa using trace
  · rw [received, List.getLast?_map, List.getLast?_eq_some_getLast (by simp)]
    rfl

/-- Settles O34: the transfer is the fill, the polled words and the last read. -/
theorem captureRunsRxOnly : Obligations.CaptureRunsRxOnly := by
  unfold Obligations.CaptureRunsRxOnly
  intro s a cs d loop final ts rs poll h rest held configured found polling rxOnly finalPoll len valid turns replies
  have total : (loop.map fun x => x.failed.length + 2).sum + (if poll then final.failed.length + 1 else 0) + 2 + 12 =
    (loop.map fun x => x.failed.length + 2).sum + (if poll then final.failed.length + 1 else 0) + 14 := by omega
  obtain ⟨t, run, trace, holds, length, received, computed, others⟩ := capture_polling (rs := rs)
    (bytes := (loop ++ [final]).map WordReplies.byte)
    (requests := called (.tTransmit s.cfg.placeholder) ::
      loop.flatMap (fun x => x.statusReads ++ [asked .tReceive x.byte]) ++ (if poll then final.statusReads else []) ++
      [asked .tReceive final.byte])
    h rest held configured found polling (by simpa using len) turns (by
      rintro u rfl - inside
      obtain ⟨q, n, words⟩ := runSteps_frameRxOnly (s := ((s.opened a d _ cs _).goTo .opening).begun _) rest.1
        rest.2.1 rxOnly finalPoll rfl len inside valid (ts := runs 4 ++ ts) rfl replies
      exact ⟨q, n, runSteps_then (step_opening_rxOnly ⟨rest.1, rest.2.1, rfl, rfl⟩ polling rxOnly rfl) words⟩)
  refine ⟨t, total ▸ run, ?_, holds, length, ?_, ?_, others⟩
  · simpa using trace
  · simpa using received
  · simpa using computed

end Sys2Proof.Machine
end

/-! Proof of O35: the handler's program step by step, its two services as runs, and the CAPTURE around them. -/
section
namespace Sys2Proof.Machine

section
variable {s : State} {ts : List Turn}

/-! ### A request of the handler -/

/-- The request of the handler's place is made, and the handler goes on from what that leads to (R130, R160). -/
theorem step_hdlRequest {u : State} {p : HdlPos} {i : Instr} (stands : s.inHandler p)
    (place : hdlRequest s p = some i) (turns : s.turns = .run :: ts) (made : exec i { s with turns := ts } = .next u) :
    step s = hdlResume u := by
  obtain ⟨running, hdl, presented⟩ := stands
  obtain ⟨r, word⟩ := requestOf_hdlRequest place
  have presented : s.hreq = some r := by rw [presented, place, Option.bind_some, word]
  have decoded := decodeRequest_requestOf word
  obtain ⟨v, answered, port⟩ := exec_port_law i r decoded { s with turns := ts }
  obtain rfl : u = v := by simpa [answered, eq_comm] using made
  have running : s.hdl ≠ .idle := hdl ▸ running
  have fetched : fetch { s with turns := ts } = .request i := fetch_handler_request _ r i running presented decoded
  rw [step_run s (State.turn_of_turns turns), State.afterTurn_of_turns turns, runTurn_request _ i fetched, made,
    andThen_value, resume_handler u (port.hdl.trans_ne running)]

theorem State.inHandler.hdl {p : HdlPos} (stands : s.inHandler p) : s.hdl = p := stands.2.1

theorem State.inHandler.running {p : HdlPos} (stands : s.inHandler p) : s.hdl ≠ .idle := stands.hdl ▸ stands.1

/-- A request of the handler without a reply is made. -/
theorem step_hCalled {p : HdlPos} {i : Instr} (stands : s.inHandler p) (place : hdlRequest s p = some i)
    (turns : s.turns = .run :: ts) (made : ∀ u, exec i u = .next (u.issue i)) :
    step s = hdlResume { s with turns := ts, trace := s.trace ++ [hCalled i] } := by
  rw [step_hdlRequest stands place turns (made _), State.issue, State.context, if_neg stands.running, hCalled]

/-- A request of the handler with a reply is made. -/
theorem step_hAsked {p : HdlPos} {i : Instr} {b : Byte} {bs : List Byte} (stands : s.inHandler p)
    (place : hdlRequest s p = some i) (turns : s.turns = .run :: ts) (replies : s.replies = b :: bs)
    (made : ∀ u, exec i u = .next (u.issueForReply i)) :
    step s = hdlResume { s with turns := ts, replies := bs, tqRd := b, trace := s.trace ++ [hAsked i b] } := by
  rw [step_hdlRequest stands place turns (made _), State.issueForReply_of_replies (s := { s with turns := ts }) replies,
    State.context, if_neg stands.running, hAsked]

/-! ### The wait of the interrupt discipline -/

theorem step_enableTx (stands : s.standsAt .enableTx) (turns : s.turns = .run :: ts) :
    step s = .next ({ s with
      turns := ts
      armTx := true
      trace := s.trace ++ [called (.tEnableInterrupt .txEmpty)] }.goTo .enableRx) := by
  rw [step_request stands rfl turns rfl, State.issue, State.context, if_pos stands.1]
  simp only [State.setArm, seqResume, stands.seq, called]

theorem step_enableRx (stands : s.standsAt .enableRx) (turns : s.turns = .run :: ts) :
    step s = .next ({ s with
      turns := ts
      armRx := true
      trace := s.trace ++ [called (.tEnableInterrupt .rxFull)] }.startWait .watch) := by
  rw [step_request stands rfl turns rfl, State.issue, State.context, if_pos stands.1]
  simp only [State.setArm, seqResume, stands.seq, called]

/-- The registers when the wait of the interrupt discipline begins (R108). -/
def State.armedToWait (s : State) (ts : List Turn) : State :=
  { s with
    turns := ts
    pstate := .transferring
    ready := false
    armTx := true
    armRx := true
    wcnt := 0
    trace := s.trace ++ [called (.tEnableInterrupt .txEmpty), called (.tEnableInterrupt .rxFull)]
    seq := .watch
    sreq := none }

/-- Transition 3 in INTERRUPT up to its wait (R103, R108). -/
theorem runSteps_armedToWait (hdl : s.hdl = .idle) (noDelay : s.delayBusy = false)
    (interrupt : s.cfg.discipline = .interrupt) (turns : s.turns = runs 3 ++ ts) :
    runSteps 3 (s.goTo .opening) = .next (s.armedToWait ts) := by
  have opening := step_opening_interrupt (s := s.goTo .opening) ⟨hdl, noDelay, rfl, rfl⟩ interrupt turns
  have run := runSteps_then opening <|
    runSteps_then (step_enableTx ⟨hdl, noDelay, rfl, rfl⟩ rfl) <|
    runSteps_one _ _ (step_enableRx ⟨hdl, noDelay, rfl, rfl⟩ rfl)
  simpa [State.startWait, State.goTo, seqRequest, State.armedToWait] using run

theorem seqAction_watch_failed (stands : s.standsAt .watch) (waiting : s.ready = false)
    (left : ∀ n, s.cfg.waitLimit = some n → s.wcnt + 1 < n) :
    seqAction s = .next { s with wcnt := s.counted 1 } := by
  simp only [seqAction, stands.seq, waiting, Bool.false_eq_true, if_false]
  rw [failedObservation_stays stands left, stands.seq, waiting]

theorem step_watch_failed (stands : s.standsAt .watch) (waiting : s.ready = false)
    (left : ∀ n, s.cfg.waitLimit = some n → s.wcnt + 1 < n) (turns : s.turns = .run :: ts) :
    step s = .next { s with
      turns := ts
      wcnt := s.counted 1 } :=
  (step_action stands rfl (by simp) turns).trans
    (seqAction_watch_failed (s := { s with turns := ts }) stands waiting left)

/-- Failed observations of `ready` are made again, each counted if there is a limit (R109, R112). -/
theorem runSteps_failedWatches (k : Nat) : ∀ {s : State} {ts : List Turn}, s.standsAt .watch → s.ready = false →
    s.turns = runs k ++ ts → (∀ n, s.cfg.waitLimit = some n → s.wcnt + k < n) →
    runSteps k s = .next { s with
      turns := ts
      wcnt := s.counted k } := by
  induction k with
  | zero =>
    intro s ts _ _ turns _
    obtain rfl : s.turns = ts := turns
    simp [State.counted]
  | succ k ih =>
    intro s ts stands waiting turns left
    have again := step_watch_failed stands waiting (fun n limit => by have := left n limit; omega) turns
    refine runSteps_then again ((ih ?_ ?_ rfl ?_).trans ?_)
    · exact stands
    · exact waiting
    · intro n limit
      have := left n limit
      simp only at limit ⊢
      simp only [State.counted, limit, Option.isSome_some, if_true]
      omega
    · cases limit : s.cfg.waitLimit <;> simp [State.counted, limit]
      omega

theorem step_watch_ready (stands : s.standsAt .watch) (ready : s.ready = true) (turns : s.turns = .run :: ts) :
    step s = .next ({ s with turns := ts }.goTo .deassertSelect) := by
  rw [step_action stands rfl (by simp) turns]
  simp only [seqAction, stands.seq, ready, if_true]

/-! ### Entry and return -/

theorem deliver_enters (deliverable : s.canDeliver = true) (hdl : s.hdl = .idle) : s.deliver = s.enterHandler := by
  simp [State.deliver, deliverable, hdl]

/-- A delivery enters the handler (R160). -/
theorem step_delivery (hdl : s.hdl = .idle) (interrupt : s.cfg.discipline = .interrupt)
    (armed : s.armTx = true ∨ s.armRx = true) (turns : s.turns = .interrupt :: ts) :
    step s = .next ({ s with turns := ts, irqPending := false }.hdlGoTo .status) := by
  have deliverable : s.canDeliver = true := by simpa [State.canDeliver, interrupt] using armed
  rw [step_interrupt s (State.turn_of_turns turns), State.afterTurn_of_turns turns]
  exact congrArg Host.Outcome.next (deliver_enters (s := { s with turns := ts }) deliverable hdl)

/-- A run with no delivery remembered gives the sequencer the processor back (R164). -/
theorem leaveHandler_none (none : s.irqPending = false) : s.leaveHandler = s.hdlGoTo .idle := by
  rw [leaveHandler_returns s (by simp [none]), ← none]

/-! ### The service of TX_EMPTY -/

/-- A reported and armed TX_EMPTY is serviced first; RX_FULL is to follow if it is reported and armed too (R159,
R160). -/
theorem step_status_transmit {b : Byte} {rs : List Byte} {drain : Bool} (stands : s.inHandler .status)
    (turns : s.turns = .run :: ts) (replies : s.replies = b :: rs) (empty : b.getLsbD 0 = true) (armed : s.armTx = true)
    (full : (b.getLsbD 1 && s.armRx) = drain) :
    step s = .next ({ s with
      turns := ts
      replies := rs
      tqRd := b
      hDoRx := drain
      trace := s.trace ++ [hAsked .tInterruptStatus b] }.hdlGoTo .txTransmit) := by
  rw [step_hAsked stands rfl turns replies fun _ => rfl]
  simp only [hdlResume, stands.hdl, State.hdlServe, reported, empty, armed, full, Bool.and_self, if_true]

theorem step_txTransmit {c : Byte} (stands : s.inHandler .txTransmit) (sent : handlerByte s = c)
    (turns : s.turns = .run :: ts) :
    step s = .next ({ s with
      turns := ts
      trace := s.trace ++ [hCalled (.tTransmit c)] }.hdlGoTo .txDisable) := by
  have place : hdlRequest s .txTransmit = some (.tTransmit c) := by rw [← sent]; rfl
  rw [step_hCalled stands place turns fun _ => rfl]
  simp only [hdlResume, stands.hdl]

theorem step_txDisable (stands : s.inHandler .txDisable) (turns : s.turns = .run :: ts) :
    step s = .next ({ s with
      turns := ts
      armTx := false
      trace := s.trace ++ [hCalled (.tDisableInterrupt .txEmpty)] }.hdlGoTo .txClear) := by
  rw [step_hdlRequest stands rfl turns rfl, State.issue, State.context, if_neg stands.running]
  simp only [State.setArm, hdlResume, stands.hdl, hCalled]

/-- The service of TX_EMPTY is over, RX_FULL is not to be serviced, and no delivery is remembered (R162, R164). -/
theorem step_txClear_returns (stands : s.inHandler .txClear) (noDrain : s.hDoRx = false) (none : s.irqPending = false)
    (turns : s.turns = .run :: ts) :
    step s = .next ({ s with
      turns := ts
      trace := s.trace ++ [hCalled (.tClearInterrupt .txEmpty)] }.hdlGoTo .idle) := by
  rw [step_hCalled stands rfl turns fun _ => rfl]
  simp only [hdlResume, stands.hdl, State.hdlAfterTx, noDrain, Bool.false_eq_true, if_false]
  exact congrArg Host.Outcome.next (leaveHandler_none none)

/-- A delivery that reports TX_EMPTY alone, and the run that services it (R160, R162). -/
theorem runSteps_transmitService {b c : Byte} {rs : List Byte} (hdl : s.hdl = .idle)
    (interrupt : s.cfg.discipline = .interrupt) (armed : s.armTx = true)
    (sent : handlerByte s = c) (empty : b.getLsbD 0 = true) (notFull : b.getLsbD 1 = false)
    (turns : s.turns = .interrupt :: runs 4 ++ ts) (replies : s.replies = b :: rs) :
    runSteps 5 s = .next { s with
      turns := ts
      replies := rs
      tqRd := b
      hDoRx := false
      armTx := false
      irqPending := false
      hdl := .idle
      hreq := none
      trace := s.trace ++ [hAsked .tInterruptStatus b, hCalled (.tTransmit c),
        hCalled (.tDisableInterrupt .txEmpty), hCalled (.tClearInterrupt .txEmpty)] } := by
  have run := runSteps_then (step_delivery hdl interrupt (.inl armed) turns) <|
    runSteps_then (step_status_transmit ⟨nofun, rfl, rfl⟩ rfl replies empty armed (drain := false)
      (by simp only [State.hdlGoTo, notFull, Bool.false_and])) <|
    runSteps_then (step_txTransmit ⟨nofun, rfl, rfl⟩ sent rfl) <|
    runSteps_then (step_txDisable ⟨nofun, rfl, rfl⟩ rfl) <|
    runSteps_one _ _ (step_txClear_returns ⟨nofun, rfl, rfl⟩ rfl rfl rfl)
  simpa [State.hdlGoTo, hdlRequest] using run

/-! ### The service of RX_FULL -/

/-- RX_FULL alone is serviced: the drain begins (R160, R163). -/
theorem step_status_drain {b : Byte} {rs : List Byte} (stands : s.inHandler .status) (turns : s.turns = .run :: ts)
    (replies : s.replies = b :: rs) (disarmed : s.armTx = false) (full : b.getLsbD 1 = true) (armed : s.armRx = true) :
    step s = .next { s with
      turns := ts
      replies := rs
      tqRd := b
      hDoRx := true
      hk := 0
      trace := s.trace ++ [hAsked .tInterruptStatus b] }.drainNext := by
  rw [step_hAsked stands rfl turns replies fun _ => rfl]
  simp only [hdlResume, stands.hdl, State.hdlServe, State.hdlAfterTx, reported, full, armed, disarmed, Bool.and_false,
    Bool.false_eq_true, if_false, Bool.and_self, if_true]

/-- Where the drain goes on does not depend on the place it comes from. -/
theorem drainNext_placed (s : State) (p : HdlPos) (r : Option Request) :
    { s with hdl := p, hreq := r }.drainNext = s.drainNext := rfl

theorem drainNext_more (more : s.hk < s.fLength) : s.drainNext = s.hdlGoTo .rxReceive := if_pos more

theorem drainNext_complete (complete : s.fLength ≤ s.hk) : s.drainNext = s.hdlGoTo .rxDisable :=
  if_neg (by omega)

theorem step_rxReceive {b : Byte} {rs : List Byte} (stands : s.inHandler .rxReceive) (inside : s.hk < s.cfg.frameCap)
    (turns : s.turns = .run :: ts) (replies : s.replies = b :: rs) :
    step s = .next { s with
      turns := ts
      replies := rs
      tqRd := b
      fBytes := Memory.write s.fBytes s.hk b
      hk := s.hk + 1
      trace := s.trace ++ [hAsked .tReceive b] }.drainNext := by
  rw [step_hAsked stands rfl turns replies fun _ => rfl]
  simp only [hdlResume, stands.hdl, hdlStore, memWrite, inside, if_true, andThen_value]

/-- The registers once these bytes are drained to their addresses (R163). The environment goes on with these moves and
replies. -/
def State.drained (s : State) (bytes : List Byte) (ts : List Turn) (rs : List Byte) : State :=
  { s with
    turns := ts
    replies := rs
    tqRd := bytes.getLast?.getD s.tqRd
    fBytes := Memory.writeAll s.fBytes s.hk bytes
    hk := s.hk + bytes.length
    trace := s.trace ++ bytes.map (hAsked .tReceive) }

/-- The drain of the bytes that are left, or of some of them (R163). -/
theorem runSteps_drain (bytes : List Byte) : ∀ {s : State} {ts : List Turn} {rs : List Byte},
    s.hk + bytes.length ≤ s.fLength → s.fLength ≤ s.cfg.frameCap → s.turns = runs bytes.length ++ ts →
    s.replies = bytes ++ rs → runSteps bytes.length s.drainNext = .next (s.drained bytes ts rs).drainNext := by
  induction bytes with
  | nil =>
    intro s ts rs _ _ turns replies
    obtain rfl : s.turns = ts := turns
    obtain rfl : s.replies = rs := replies
    simp [State.drained, Memory.writeAll]
  | cons b bytes ih =>
    intro s ts rs more inside turns replies
    simp only [List.length_cons] at more
    rw [drainNext_more (by omega)]
    have one := step_rxReceive (s := s.hdlGoTo .rxReceive) ⟨nofun, rfl, rfl⟩ (show s.hk < s.cfg.frameCap by omega)
      turns replies
    refine (runSteps_then one (ih ?_ ?_ rfl rfl)).trans ?_
    · simp; omega
    · exact inside
    · refine congrArg Host.Outcome.next ((drainNext_placed _ s.hdl s.hreq).symm.trans ?_)
      simp [State.drained, Memory.writeAll, List.getLast?_cons, Nat.add_comm 1, Nat.add_assoc]

/-- The end of a drain: `ready` is set last, and no delivery is remembered (R163, R164). -/
theorem step_rxClear_returns (stands : s.inHandler .rxClear) (none : s.irqPending = false)
    (turns : s.turns = .run :: ts) :
    step s = .next ({ s with
      turns := ts
      ready := true
      trace := s.trace ++ [hCalled (.tClearInterrupt .rxFull)] }.hdlGoTo .idle) := by
  rw [step_hCalled stands rfl turns fun _ => rfl]
  simp only [hdlResume, stands.hdl]
  exact congrArg Host.Outcome.next (leaveHandler_none none)

theorem step_rxDisable (stands : s.inHandler .rxDisable) (turns : s.turns = .run :: ts) :
    step s = .next ({ s with
      turns := ts
      armRx := false
      trace := s.trace ++ [hCalled (.tDisableInterrupt .rxFull)] }.hdlGoTo .rxClear) := by
  rw [step_hdlRequest stands rfl turns rfl, State.issue, State.context, if_neg stands.running]
  simp only [State.setArm, hdlResume, stands.hdl, hCalled]

/-- A delivery that reports RX_FULL while it alone is armed, and the run that services it (R160, R163). -/
theorem runSteps_drainService {b : Byte} {bytes rs : List Byte} (hdl : s.hdl = .idle)
    (interrupt : s.cfg.discipline = .interrupt) (disarmed : s.armTx = false) (armed : s.armRx = true)
    (full : b.getLsbD 1 = true) (len : bytes.length = s.fLength) (inside : s.fLength ≤ s.cfg.frameCap)
    (turns : s.turns = .interrupt :: runs (bytes.length + 3) ++ ts) (replies : s.replies = b :: bytes ++ rs) :
    runSteps (bytes.length + 4) s = .next { s with
      turns := ts
      replies := rs
      tqRd := bytes.getLast?.getD b
      hDoRx := true
      hk := bytes.length
      fBytes := Memory.writeAll s.fBytes 0 bytes
      armRx := false
      ready := true
      irqPending := false
      hdl := .idle
      hreq := none
      trace := s.trace ++ hAsked .tInterruptStatus b :: bytes.map (hAsked .tReceive) ++
        [hCalled (.tDisableInterrupt .rxFull), hCalled (.tClearInterrupt .rxFull)] } := by
  have turns : s.turns = .interrupt :: .run :: (runs bytes.length ++ (runs 2 ++ ts)) := by
    rw [turns, show bytes.length + 3 = 1 + bytes.length + 2 by omega, runs_add, runs_add]
    simp [runs]
  have begun := runSteps_then (step_delivery hdl interrupt (.inr armed) turns) <|
    runSteps_one _ _ (step_status_drain ⟨nofun, rfl, rfl⟩ rfl replies disarmed full armed)
  have drained := runSteps_append begun (runSteps_drain bytes (by simp [len]) inside rfl rfl)
  rw [drainNext_complete (by simp [State.drained, len])] at drained
  have run := runSteps_append drained <|
    runSteps_then (step_rxDisable ⟨nofun, rfl, rfl⟩ rfl) <|
    runSteps_one _ _ (step_rxClear_returns ⟨nofun, rfl, rfl⟩ rfl rfl)
  rw [show 1 + 1 + bytes.length + (1 + 1) = bytes.length + 4 by omega] at run
  simpa [State.drained, State.hdlGoTo, hdlRequest] using run

/-! ### The wait as a run -/

/-- The registers after `j` failed observations and a service of TX_EMPTY alone, with the requests of R114. -/
def State.transmitServed (s : State) (j : Nat) (b c : Byte) (ts : List Turn) (rs : List Byte) : State :=
  { s with
    turns := ts
    replies := rs
    tqRd := b
    hDoRx := false
    armTx := false
    irqPending := false
    hdl := .idle
    hreq := none
    wcnt := s.counted j
    trace := s.trace ++ [hAsked .tInterruptStatus b, hCalled (.tTransmit c), hCalled (.tDisableInterrupt .txEmpty),
      hCalled (.tClearInterrupt .txEmpty)] }

/-- A wait up to the end of the service of TX_EMPTY (R109, R162). -/
theorem runSteps_waitToTransmit {b c : Byte} {rs : List Byte} {j : Nat} (stands : s.standsAt .watch)
    (interrupt : s.cfg.discipline = .interrupt) (waiting : s.ready = false) (armed : s.armTx = true)
    (below : ∀ n, s.cfg.waitLimit = some n → s.wcnt + j < n) (sent : handlerByte s = c) (empty : b.getLsbD 0 = true)
    (notFull : b.getLsbD 1 = false) (turns : s.turns = runs j ++ .interrupt :: runs 4 ++ ts)
    (replies : s.replies = b :: rs) : runSteps (j + 5) s = .next (s.transmitServed j b c ts rs) :=
  runSteps_append (runSteps_failedWatches j stands waiting (by simpa using turns) below) <|
    runSteps_transmitService stands.1 interrupt armed sent empty notFull rfl replies

/-- The registers after `k` failed observations and a service of RX_FULL alone that drained these bytes, with the
requests of R114. -/
def State.drainServed (s : State) (k : Nat) (b : Byte) (bytes : List Byte) (ts : List Turn) (rs : List Byte) : State :=
  { s with
    turns := ts
    replies := rs
    tqRd := bytes.getLast?.getD b
    hDoRx := true
    hk := bytes.length
    fBytes := Memory.writeAll s.fBytes 0 bytes
    armRx := false
    ready := true
    irqPending := false
    hdl := .idle
    hreq := none
    wcnt := s.counted k
    trace := s.trace ++ hAsked .tInterruptStatus b :: bytes.map (hAsked .tReceive) ++
      [hCalled (.tDisableInterrupt .rxFull), hCalled (.tClearInterrupt .rxFull)] }

/-- A wait that the service of RX_FULL ends (R109, R163). -/
theorem runSteps_waitToDrain {b : Byte} {bytes rs : List Byte} {k : Nat} (stands : s.standsAt .watch)
    (interrupt : s.cfg.discipline = .interrupt) (waiting : s.ready = false) (disarmed : s.armTx = false)
    (armed : s.armRx = true) (below : ∀ n, s.cfg.waitLimit = some n → s.wcnt + k < n) (full : b.getLsbD 1 = true)
    (len : bytes.length = s.fLength) (inside : s.fLength ≤ s.cfg.frameCap)
    (turns : s.turns = runs k ++ .interrupt :: runs (bytes.length + 4) ++ ts)
    (replies : s.replies = b :: bytes ++ rs) :
    runSteps (k + (bytes.length + 4) + 1) s = .next ((s.drainServed k b bytes ts rs).goTo .deassertSelect) := by
  have ⟨hdl, noDelay, place, request⟩ := stands
  have watched := runSteps_failedWatches k stands waiting
    (ts := .interrupt :: runs (bytes.length + 3) ++ .run :: ts) (by rw [turns, runs_add (_ + 3) 1]; simp [runs]) below
  have served : runSteps (k + (bytes.length + 4)) s = .next (s.drainServed k b bytes (.run :: ts) rs) :=
    runSteps_append watched <| runSteps_drainService hdl interrupt disarmed armed full len inside rfl replies
  exact runSteps_append served <| runSteps_one _ _ <|
    step_watch_ready (s := s.drainServed k b bytes (.run :: ts) rs) ⟨rfl, noDelay, place, request⟩ rfl rfl

end

/-! ### The run of a CAPTURE -/

/-- The handler transmits the command's byte, if it has one (R101, R162). -/
theorem handlerByte_opened (s : State) (a : Byte) (d : Descriptor) (requests : List PortEvent) (ws : List Word16)
    (ts : List Turn) : handlerByte (s.opened a d requests ws ts) = d.code.getD s.cfg.placeholder := by
  cases code : d.code <;> simp [handlerByte, State.opened, code]

/-- Settles O35: the wait is armed, its two deliveries are serviced, and the frame is validated. -/
theorem captureRunsInterrupt : Obligations.CaptureRunsInterrupt := by
  unfold Obligations.CaptureRunsInterrupt
  intro s a cs d bytes j k st1 st2 ts rs h rest held configured found interrupt len below empty notFull full turns
    replies
  obtain ⟨long, inside, -⟩ := cfgOk_descriptor (h.configuredOk configured) found
  have ⟨hdl, noDelay, _⟩ := rest
  have opened := runSteps_toOpening_interrupt rest held configured found interrupt
    (ts := runs 3 ++ (runs j ++ .interrupt :: runs 4 ++ (runs k ++ .interrupt :: runs (bytes.length + 4) ++
      (runs 4 ++ ts)))) (by
      rw [turns, show j + 4 = 1 + 3 + j by omega, Nat.add_comm k, runs_add, runs_add, runs_add 4 k,
        runs_add (bytes.length + 4) 4]
      simp [runs])
  have armed := runSteps_append opened (runSteps_armedToWait hdl noDelay interrupt rfl)
  have transmitted := runSteps_append armed <|
    runSteps_waitToTransmit (j := j) ⟨hdl, noDelay, rfl, rfl⟩ interrupt rfl rfl
      (fun n limit => Nat.lt_of_le_of_lt (by simp [State.armedToWait]) (below n limit))
      (handlerByte_opened s a d [] cs []) empty notFull rfl replies
  have drained := runSteps_append transmitted <|
    runSteps_waitToDrain (k := k) ⟨rfl, noDelay, rfl, rfl⟩ interrupt rfl rfl rfl
      (fun n limit => Nat.lt_of_le_of_lt (Nat.add_le_add_right (counted_le _ j) k)
        (by simpa [State.armedToWait] using below n limit)) full len inside rfl rfl
  have run := runSteps_append drained <|
    runSteps_answered rfl noDelay (by omega) len.symm inside (Memory.holds_writeAll s.fBytes bytes) rfl
  rw [show 8 + 3 + (j + 5) + (k + (bytes.length + 4) + 1) + 4 = j + k + bytes.length + 25 by omega] at run
  refine ⟨_, run, ?_, Memory.holds_writeAll s.fBytes bytes, rfl, rfl, rfl, rfl, rfl,
    ⟨rfl, noDelay, rfl, rfl, rfl⟩, h.runSteps_inv run, rfl, rfl, rfl, rfl, configured, rfl, rfl, rfl, rfl⟩
  simp [State.answered, State.drainServed, State.transmitServed, State.armedToWait, State.opened, countByte]

end Sys2Proof.Machine
end

/-! Proof of O47: what the block does while it is busy neither reads nor writes the words the host holds. -/
section
namespace Sys2Proof.Machine

/-- `s` with other words held at the command port. -/
def State.withHeld (s : State) (cs : List Word16) : State := { s with cmds := cs }

@[simp] theorem State.withHeld_hdl (s : State) (cs : List Word16) : (s.withHeld cs).hdl = s.hdl := rfl
@[simp] theorem State.withHeld_seq (s : State) (cs : List Word16) : (s.withHeld cs).seq = s.seq := rfl
@[simp] theorem State.withHeld_fLength (s : State) (cs : List Word16) : (s.withHeld cs).fLength = s.fLength := rfl
@[simp] theorem State.withHeld_cfg (s : State) (cs : List Word16) : (s.withHeld cs).cfg = s.cfg := rfl

/-- The same choice on both sides of a step: it does not depend on the held words. -/
theorem ite_withHeld (c : Prop) [Decidable c] (t u : State) (cs : List Word16) :
    (if c then t.withHeld cs else u.withHeld cs) = (if c then t else u).withHeld cs :=
  (apply_ite (State.withHeld · cs) c t u).symm

theorem onNext_value (f : State → State) (s : State) : onNext f (.next s) = .next (f s) := rfl

/-! ### The named operations -/

section
variable (s : State) (cs : List Word16)

theorem afterTurn_withHeld : (s.withHeld cs).afterTurn = s.afterTurn.withHeld cs := by
  cases turns : s.turns <;> simp [State.afterTurn, State.withHeld, turns]

theorem issueForReply_withHeld (i : Instr) :
    (s.withHeld cs).issueForReply i = (s.issueForReply i).withHeld cs := by
  cases replies : s.replies <;>
    simp [State.issueForReply, State.afterReply, State.reply, State.withHeld, State.context, replies]

theorem goTo_withHeld (p : SeqPos) : (s.withHeld cs).goTo p = (s.goTo p).withHeld cs := rfl

theorem setArm_withHeld (src : Source) (b : Bool) : (s.withHeld cs).setArm src b = (s.setArm src b).withHeld cs := by
  cases src <;> rfl

/-! ### The handler -/

theorem leaveHandler_withHeld : (s.withHeld cs).leaveHandler = s.leaveHandler.withHeld cs := by
  unfold State.leaveHandler
  rw [← ite_withHeld]
  rfl

theorem drainNext_withHeld : (s.withHeld cs).drainNext = s.drainNext.withHeld cs := by
  unfold State.drainNext
  rw [← ite_withHeld]
  rfl

theorem hdlAfterTx_withHeld : (s.withHeld cs).hdlAfterTx = s.hdlAfterTx.withHeld cs := by
  refine Eq.trans ?_ (ite_withHeld _ _ _ cs)
  rw [← drainNext_withHeld, ← leaveHandler_withHeld]
  rfl

theorem hdlServe_withHeld : (s.withHeld cs).hdlServe = s.hdlServe.withHeld cs := by
  refine Eq.trans ?_ (ite_withHeld _ _ _ cs)
  rw [← hdlAfterTx_withHeld]
  rfl

theorem deliver_withHeld : (s.withHeld cs).deliver = s.deliver.withHeld cs := by
  refine Eq.trans ?_ (ite_withHeld _ _ _ cs)
  rw [← ite_withHeld]
  rfl

theorem memWrite_withHeld (a : Nat) (b : Byte) :
    memWrite (s.withHeld cs) a b = onNext (·.withHeld cs) (memWrite s a b) := by
  by_cases inside : a < s.cfg.frameCap <;> simp [memWrite, inside, onNext, andThen, State.withHeld]

theorem hdlStore_withHeld : hdlStore (s.withHeld cs) = onNext (·.withHeld cs) (hdlStore s) := by
  unfold hdlStore
  have stored : memWrite (s.withHeld cs) (s.withHeld cs).hk (s.withHeld cs).tqRd = _ :=
    memWrite_withHeld s cs s.hk s.tqRd
  rw [stored]
  cases memWrite s s.hk s.tqRd with
  | fault e => rfl
  | refused e => rfl
  | next t => exact congrArg Host.Outcome.next (drainNext_withHeld { t with hk := t.hk + 1 } cs)

/-- What the handler does when its request is complete. -/
theorem hdlResume_withHeld : hdlResume (s.withHeld cs) = onNext (·.withHeld cs) (hdlResume s) := by
  cases place : s.hdl <;> simp only [hdlResume, State.withHeld_hdl, place, onNext_value]
  case status => rw [hdlServe_withHeld]
  case txClear => rw [hdlAfterTx_withHeld]
  case rxReceive => exact hdlStore_withHeld s cs
  case rxClear => exact congrArg Host.Outcome.next (leaveHandler_withHeld { s with ready := true } cs)
  all_goals rfl

/-! ### The sequencer -/

theorem startTimeout_withHeld : (s.withHeld cs).startTimeout = s.startTimeout.withHeld cs := by
  cases discipline : s.cfg.discipline <;> simp [State.startTimeout, discipline, goTo_withHeld]

theorem failedObservation_withHeld (p : SeqPos) :
    (s.withHeld cs).failedObservation p = (s.failedObservation p).withHeld cs := by
  cases limit : s.cfg.waitLimit with
  | none => simp only [State.failedObservation, State.withHeld_cfg, limit, goTo_withHeld]
  | some n =>
    simp only [State.failedObservation, State.withHeld_cfg, limit]
    rw [← ite_withHeld, ← startTimeout_withHeld]
    rfl

theorem nextByte_withHeld : (s.withHeld cs).nextByte = s.nextByte.withHeld cs := by
  unfold State.nextByte
  rw [← ite_withHeld]
  cases mode : s.cfg.mode with
  | txrx => simp only [State.withHeld_cfg, mode]; rfl
  | rxOnly => simp only [State.withHeld_cfg, mode, ← ite_withHeld]; rfl

theorem openTransfer_withHeld : (s.withHeld cs).openTransfer = s.openTransfer.withHeld cs := by
  cases discipline : s.cfg.discipline with
  | interrupt => simp only [State.openTransfer, State.withHeld_cfg, discipline]; rfl
  | polling =>
    cases mode : s.cfg.mode with
    | txrx =>
      simp only [State.openTransfer, State.withHeld_cfg, discipline, mode]
      exact nextByte_withHeld { s with pstate := .transferring, idx := 0 } cs
    | rxOnly => simp only [State.openTransfer, State.withHeld_cfg, discipline, mode]; rfl

theorem afterTransmit_withHeld : (s.withHeld cs).afterTransmit = s.afterTransmit.withHeld cs := by
  cases mode : s.cfg.mode with
  | txrx => simp only [State.afterTransmit, State.withHeld_cfg, mode]; rfl
  | rxOnly => simp only [State.afterTransmit, State.withHeld_cfg, mode, nextByte_withHeld]

theorem storeReceived_withHeld : storeReceived (s.withHeld cs) = onNext (·.withHeld cs) (storeReceived s) := by
  unfold storeReceived
  have stored : memWrite (s.withHeld cs) (s.withHeld cs).idx (s.withHeld cs).tqRd = _ :=
    memWrite_withHeld s cs s.idx s.tqRd
  rw [stored]
  cases memWrite s s.idx s.tqRd with
  | fault e => rfl
  | refused e => rfl
  | next t => exact congrArg Host.Outcome.next (nextByte_withHeld { t with idx := t.idx + 1 } cs)

theorem endSetup_withHeld : (s.withHeld cs).endSetup = s.endSetup.withHeld cs := by
  unfold State.endSetup
  rw [← ite_withHeld]
  rfl

/-- What the sequencer does when its request is complete. -/
theorem seqResume_withHeld : seqResume (s.withHeld cs) = onNext (·.withHeld cs) (seqResume s) := by
  cases place : s.seq <;> simp only [seqResume, State.withHeld_seq, place, onNext_value]
  case configure => rw [endSetup_withHeld]
  case setWordCount => cases discipline : s.cfg.discipline <;> simp only [State.withHeld_cfg, discipline] <;> rfl
  case transmit => rw [afterTransmit_withHeld]
  case observe =>
    rw [← ite_withHeld, ← failedObservation_withHeld]
    rfl
  case receive => exact storeReceived_withHeld s cs
  all_goals rfl

theorem memRead_withHeld (a : Nat) : memRead (s.withHeld cs) a = memRead s a := rfl

theorem memReadRange_withHeld (n : Nat) : ∀ a, memReadRange (s.withHeld cs) a n = memReadRange s a n := by
  induction n with
  | zero => exact fun _ => rfl
  | succ n ih =>
    intro a
    rw [memReadRange, memReadRange, ih]
    rfl

theorem validate_withHeld :
    validate (s.withHeld cs) = andThen (validate s) fun r => .next (r.map (·.withHeld cs)) := by
  by_cases malformed : s.fLength < 2 ∨ s.cfg.frameCap < s.fLength
  · rw [validate_malformed s malformed, validate_malformed (s.withHeld cs) malformed]
    rfl
  · have last := memRead_withHeld s cs (s.fLength - 1)
    have payload := memReadRange_withHeld s cs (s.fLength - 1) 0
    simp only [validate, State.withHeld_fLength, State.withHeld_cfg, if_neg malformed, last, payload]
    cases memRead s (s.fLength - 1) with
    | fault e => rfl
    | refused e => rfl
    | next last =>
      cases memReadRange s 0 (s.fLength - 1) with
      | fault e => rfl
      | refused e => rfl
      | next payload =>
        simp only [andThen_value]
        cases crc8 s.cfg.frameCap payload (s.fLength - 1) <;> rfl

theorem seqValidate_withHeld : seqValidate (s.withHeld cs) = onNext (·.withHeld cs) (seqValidate s) := by
  rw [seqValidate, seqValidate, validate_withHeld]
  cases validate s with
  | fault e => rfl
  | refused e => rfl
  | next r => cases r <;> rfl

/-- What the sequencer does between two requests. -/
theorem seqAction_withHeld : seqAction (s.withHeld cs) = onNext (·.withHeld cs) (seqAction s) := by
  cases place : s.seq <;> simp only [seqAction, State.withHeld_seq, place, onNext_value]
  case opening => rw [openTransfer_withHeld]
  case watch =>
    rw [← ite_withHeld, ← failedObservation_withHeld]
    rfl
  case validate => exact seqValidate_withHeld s cs
  all_goals rfl

/-! ### The processor's turn -/

theorem isHostOp_of_fetchRequest {r : Request} {i : Instr} (fetched : fetchRequest r = .request i) :
    i.isHostOp = false := by
  cases decoded : decodeRequest r with
  | error e => simp [fetchRequest, decoded] at fetched
  | ok j =>
    obtain rfl : j = i := by simpa [fetchRequest, decoded] using fetched
    exact decodeRequest_portOp r j decoded

theorem fetchCommand_ne_request (i : Instr) : fetchCommand s ≠ .request i := by
  unfold fetchCommand
  repeat' split
  all_goals simp

/-- What is fetched as a request is an operation of a port. -/
theorem isHostOp_of_fetch {s : State} {i : Instr} (fetched : fetch s = .request i) : i.isHostOp = false := by
  unfold fetch fetchSequencer fetchHandler at fetched
  split at fetched
  · split at fetched
    · cases fetched
    · split at fetched
      · exact isHostOp_of_fetchRequest fetched
      · split at fetched
        · exact absurd fetched (fetchCommand_ne_request s i)
        · cases fetched
  · split at fetched
    · exact isHostOp_of_fetchRequest fetched
    · cases fetched

/-- A request on either port does the same whatever words are held. -/
theorem exec_withHeld {i : Instr} (port : i.isHostOp = false) :
    exec i (s.withHeld cs) = onNext (·.withHeld cs) (exec i s) := by
  cases i <;> simp only [Instr.isHostOp, Bool.true_eq_false] at port
  case tReceive | tTransferComplete | tInterruptStatus | tConfigure =>
    exact congrArg Host.Outcome.next (issueForReply_withHeld s cs _)
  case tEnableInterrupt src | tDisableInterrupt src =>
    exact congrArg Host.Outcome.next (setArm_withHeld (s.issue _) cs src _)
  all_goals rfl

theorem resume_withHeld : resume (s.withHeld cs) = onNext (·.withHeld cs) (resume s) := by
  by_cases hdl : s.hdl = .idle
  · rw [resume_sequencer s hdl, resume_sequencer (s.withHeld cs) hdl, seqResume_withHeld]
  · rw [resume_handler s hdl, resume_handler (s.withHeld cs) hdl, hdlResume_withHeld]

theorem action_withHeld : action (s.withHeld cs) = onNext (·.withHeld cs) (action s) := by
  by_cases hdl : s.hdl = .idle
  · rw [action_sequencer s hdl, action_sequencer (s.withHeld cs) hdl, seqAction_withHeld]
  · rw [action, action, if_neg hdl]
    exact if_neg hdl

/-- A busy block does not look at the words held (R81). -/
theorem fetch_withHeld (busy : s.pstate ≠ .idle ∨ s.seq ≠ .rest) : fetch (s.withHeld cs) = fetch s := by
  have commands : (if s.seq = .rest then fetchCommand (s.withHeld cs) else .action) =
      if s.seq = .rest then fetchCommand s else .action := by
    refine ite_congr rfl (fun rest => ?_) fun _ => rfl
    have running : s.pstate ≠ .idle := busy.resolve_right (not_not_intro rest)
    exact (if_neg running).trans (if_neg running).symm
  have sequencer : fetchSequencer (s.withHeld cs) = fetchSequencer s := by
    rw [fetchSequencer, fetchSequencer, ← commands]
    rfl
  rw [fetch, fetch, sequencer]
  rfl

theorem runTurn_withHeld (busy : s.pstate ≠ .idle ∨ s.seq ≠ .rest) :
    runTurn (s.withHeld cs) = onNext (·.withHeld cs) (runTurn s) := by
  obtain ⟨noCommand, noIllegal⟩ := fetch_busy s busy
  have same := fetch_withHeld s cs busy
  cases fetched : fetch s with
  | command i => exact absurd fetched (noCommand i)
  | illegalCommand e => exact absurd fetched (noIllegal e)
  | badRequest e => rw [runTurn, runTurn, same, fetched]; rfl
  | waiting => rw [runTurn_waiting s fetched, runTurn_waiting _ (same.trans fetched)]; rfl
  | action => rw [runTurn_action s fetched, runTurn_action _ (same.trans fetched), action_withHeld]
  | request i =>
    rw [runTurn_request s i fetched, runTurn_request _ i (same.trans fetched),
      exec_withHeld s cs (isHostOp_of_fetch fetched)]
    cases exec i s with
    | fault e => rfl
    | refused e => rfl
    | next t => exact resume_withHeld t cs

end

/-- Settles O47: a busy block fetches no held word, and no move but the host's reads or writes one. -/
theorem heldWordsTouchNothing : Obligations.HeldWordsTouchNothing := by
  unfold Obligations.HeldWordsTouchNothing
  intro s cs busy turn
  change step (s.withHeld cs) = onNext (·.withHeld cs) (step s)
  rcases turn with turn | turn | turn
  · rw [step_run s turn, step_run (s.withHeld cs) turn, afterTurn_withHeld, runTurn_withHeld]
    simpa using busy
  · rw [step_interrupt s turn, step_interrupt (s.withHeld cs) turn, afterTurn_withHeld, deliver_withHeld]
    rfl
  · rw [step_delayDone s turn, step_delayDone (s.withHeld cs) turn, afterTurn_withHeld]
    rfl

end Sys2Proof.Machine
end

/-! What the acquisition protocol's runs are put together from, beside the steps above: a turn at a place without a
request, the idle turns of a delay, where each channel mode goes on after a byte, the ends of the two waits, and the
timeout's program (R101 to R113). -/
section
namespace Sys2Proof.Machine

section
variable {s : State} {ts : List Turn}

/-! ### Standing at a place when the turn is taken -/

/-- Taking a turn moves no context. -/
theorem State.standsAt.afterTurn {p : SeqPos} (stands : s.standsAt p) : s.afterTurn.standsAt p := by
  obtain ⟨hdl, noDelay, seq, presented⟩ := stands
  refine ⟨by simpa, by simpa, by simpa, ?_⟩
  rw [State.afterTurn_sreq, presented, seqRequest_congr (s := s) (u := s.afterTurn)] <;> simp

/-- At a place without a request nothing is presented. -/
theorem State.standsAt.noRequest {p : SeqPos} (stands : s.standsAt p) (place : seqRequest s p = none) :
    s.sreq = none := by
  obtain ⟨-, -, -, presented⟩ := stands
  rw [presented, place, Option.bind_none]

/-- The sequencer's turn at a place without a request, wherever the turn comes from. -/
theorem step_action_of_turn {p : SeqPos} (stands : s.standsAt p) (noRequest : seqRequest s p = none)
    (flight : p ≠ .rest) (turn : s.turn = .run) : step s = seqAction s.afterTurn := by
  have presented := stands.noRequest noRequest
  obtain ⟨hdl, noDelay, seq, -⟩ := stands
  have fetched : fetch s.afterTurn = .action :=
    fetch_action _ (by simpa) (by simpa) (by simpa using presented) (by simpa [seq] using flight)
  rw [step_run s turn, runTurn_action _ fetched, action_sequencer _ (by simpa)]

/-! ### Transitions 1 and 2 -/

/-- The word of a CAPTURE, spelled from its operand (R53). -/
theorem captureWord_of_decodeHost {w : Word16} {a : Byte} (decoded : decodeHost w = .ok (.capture a)) :
    w = 0x2000#16 ||| a.setWidth 16 :=
  (PortWord.host.inj (encode_of_decodeHost decoded)).symm

/-- The request that opens transition 2 (R57, R102). -/
theorem goTo_assertSelect (s : State) :
    s.goTo .assertSelect = { s with seq := .assertSelect, sreq := some (.transport 0x2000#16) } := rfl

/-- While a delay is out the sequencer's turns do nothing (R102, R145). -/
theorem runSteps_delaying (k : Nat) : ∀ {s : State} {ts : List Turn}, s.hdl = .idle → s.delayBusy = true →
    s.turns = runs k ++ ts → runSteps k s = .next { s with turns := ts } := by
  induction k with
  | zero =>
    intro s ts _ _ turns
    obtain rfl : s.turns = ts := turns
    rfl
  | succ k ih =>
    intro s ts hdl delaying turns
    have idles : step s = .next { s with turns := runs k ++ ts } := by
      rw [step_run s (State.turn_of_turns turns), State.afterTurn_of_turns turns]
      exact runTurn_waiting _ (fetch_delay _ hdl delaying)
    exact runSteps_then idles (ih hdl delaying rfl)

/-! ### The entry of transition 3 -/

/-- A transmit is presented with the byte of its place (R57). -/
theorem goTo_transmit {b : Byte} (sent : pollingByte s = b) : s.goTo .transmit = { s with
    seq := .transmit
    sreq := some (.transport (0x6000#16 ||| b.setWidth 16)) } := by
  subst sent
  rfl

/-! ### The words of the polling transfer -/

/-- In TXRX the transfer goes on with a transmit until the frame is complete (R105). -/
theorem nextByte_txrx_goTo (txrx : s.cfg.mode = .txrx) :
    s.nextByte = s.goTo (if s.idx < s.fLength then .transmit else .deassertSelect) := by
  split
  next more => exact nextByte_txrx more txrx
  next complete => exact nextByte_complete (by omega)

/-- In RX_ONLY the transfer goes on with a wait, with the final read, or with transition 4; the wait alone clears the
counter (R106, R107, R112). -/
theorem nextByte_rxOnly_goTo (rxOnly : s.cfg.mode = .rxOnly) (within : s.idx ≤ s.fLength) :
    ∃ n, s.nextByte = { s with wcnt := n }.goTo (if s.idx = s.fLength then .deassertSelect
      else if s.idx + 1 = s.fLength ∧ s.cfg.finalReadPoll = false then .receive else .observe) ∧
      (s.idx + 1 < s.fLength → n = 0) := by
  by_cases complete : s.idx = s.fLength
  · refine ⟨s.wcnt, ?_, by omega⟩
    rw [if_pos complete, nextByte_complete (by omega)]
  rw [if_neg complete]
  by_cases final : s.idx + 1 = s.fLength ∧ s.cfg.finalReadPoll = false
  · refine ⟨s.wcnt, ?_, by omega⟩
    rw [if_pos final, nextByte_rxOnly_final final.1 rxOnly final.2]
  · refine ⟨0, ?_, fun _ => rfl⟩
    have polled (last : s.idx + 1 = s.fLength) : s.cfg.finalReadPoll = true := by simpa [last] using final
    rw [if_neg final, nextByte_rxOnly_polled (by omega) rxOnly polled, State.startWait]

/-! ### The two waits (R112) -/

/-- In the wait no delay is out (R102, R109). -/
theorem State.Inv.standsAt_watch (h : s.Inv) (hdl : s.hdl = .idle) (seq : s.seq = .watch) : s.standsAt .watch := by
  have noDelay : s.delayBusy = false := by
    by_contra delaying
    have settles := h.delayPlace (by simpa using delaying)
    simp [seq] at settles
  exact ⟨hdl, noDelay, seq, seq ▸ h.presented⟩

/-- The observation of `ready` that ends the wait (R109). -/
theorem seqAction_watch_ready (stands : s.standsAt .watch) (ready : s.ready = true) :
    seqAction s = .next (s.goTo .deassertSelect) := by
  simp only [seqAction, stands.seq, ready, if_true]

/-- An observation of `ready` that fails below the limit (R109, R112). -/
theorem step_watch_failed_of_turn (stands : s.standsAt .watch) (waiting : s.ready = false) (turn : s.turn = .run)
    (left : ∀ n, s.cfg.waitLimit = some n → s.wcnt + 1 < n) :
    step s = .next { s.afterTurn with wcnt := s.counted 1 } := by
  rw [step_action_of_turn stands rfl (by simp) turn,
    seqAction_watch_failed stands.afterTurn (by simpa) (by simpa using left)]
  simp [State.counted]

/-! ### The timeout sequence (R113) -/

/-- The failed status read that reaches the limit (R112, R113). -/
theorem step_observe_timeout {n : Nat} {b : Byte} {rs : List Byte} (stands : s.standsAt .observe)
    (turns : s.turns = .run :: ts) (replies : s.replies = b :: rs) (failed : b.getLsbD 0 = false)
    (limit : s.cfg.waitLimit = some n) (reached : s.wcnt + 1 = n) :
    step s = .next { s with
      turns := ts
      replies := rs
      tqRd := b
      wcnt := n
      trace := s.trace ++ [asked .tTransferComplete b] }.startTimeout := by
  subst reached
  rw [step_asked stands rfl turns replies fun _ => rfl]
  simp only [seqResume, stands.seq, replyBit0, failed, Bool.false_eq_true, if_false]
  exact congrArg Host.Outcome.next (failedObservation_timeout _ .observe _ limit rfl)

/-- The failed observation of `ready` that reaches the limit (R112, R113). -/
theorem seqAction_watch_timeout {n : Nat} (stands : s.standsAt .watch) (interrupt : s.cfg.discipline = .interrupt)
    (waiting : s.ready = false) (limit : s.cfg.waitLimit = some n) (reached : s.wcnt + 1 = n) :
    seqAction s = .next ({ s with wcnt := n }.goTo .toDisableTx) := by
  subst reached
  have failed : seqAction s = .next (s.failedObservation .watch) := by simp [seqAction, stands.seq, waiting]
  rw [failed, failedObservation_timeout s .watch _ limit rfl]
  simp only [State.startTimeout, interrupt]

theorem step_toDisableTx (stands : s.standsAt .toDisableTx) (turns : s.turns = .run :: ts) :
    step s = .next ({ s with
      turns := ts
      armTx := false
      trace := s.trace ++ [called (.tDisableInterrupt .txEmpty)] }.goTo .toDisableRx) := by
  rw [step_request stands rfl turns rfl, State.issue, State.context, if_pos stands.1]
  simp only [State.setArm, seqResume, stands.seq, called]

theorem step_toDisableRx (stands : s.standsAt .toDisableRx) (turns : s.turns = .run :: ts) :
    step s = .next ({ s with
      turns := ts
      armRx := false
      trace := s.trace ++ [called (.tDisableInterrupt .rxFull)] }.goTo .toDeassertSelect) := by
  rw [step_request stands rfl turns rfl, State.issue, State.context, if_pos stands.1]
  simp only [State.setArm, seqResume, stands.seq, called]

theorem step_toDeassertSelect (stands : s.standsAt .toDeassertSelect) (turns : s.turns = .run :: ts) :
    step s = .next ({ s with turns := ts, trace := s.trace ++ [called .tDeassertSelect] }.goTo .toDisable) := by
  rw [step_called stands rfl turns fun _ => rfl]
  simp only [seqResume, stands.seq]

/-- The last request of the timeout sequence, with the response (R113). -/
theorem step_toDisable (stands : s.standsAt .toDisable) (turns : s.turns = .run :: ts) :
    step s = .next { s with
      turns := ts
      trace := s.trace ++ [called .tDisable]
      fLength := 0
      pstate := .idle
      seq := .rest
      sreq := none
      responses := s.responses ++ [0x3000#16] } := by
  rw [step_called stands rfl turns fun _ => rfl]
  simp only [seqResume, stands.seq]
  rfl

/-! ### Transitions 4 and 5 -/

/-- The response of transition 5: FAIL iff the two diagnostics differ (R54, R111). -/
theorem responseWord_verdictOf (received computed : Byte) :
    responseWord (verdictStatus (verdictOf received computed)) 0x00#8 =
      if received = computed then 0x0000#16 else 0x1000#16 := by
  unfold verdictOf
  split <;> rfl

/-- The check of a payload and its last byte, and the VALIDATED it leads to (R75, R76, R111). -/
theorem step_validate_payload {payload : List Byte} {last : Byte} {old : List Host.Cell}
    (stands : s.standsAt .validate) (filled : payload ≠ []) (len : s.fLength = payload.length + 1)
    (inside : s.fLength ≤ s.cfg.frameCap) (holds : Memory.holds s.fBytes old (payload ++ [last]))
    (turns : s.turns = .run :: ts) :
    step s = .next { s with
      turns := ts
      receivedCRC := ~~~last
      computedCRC := crcTextbook payload
      errorFlag := if ~~~last = crcTextbook payload then s.errorFlag else .fail
      pstate := .validated
      seq := .respond } := by
  have long : 2 ≤ (payload ++ [last]).length := by
    have := List.length_pos_iff.2 filled
    simp
    omega
  have checked := step_validate stands long (by simpa using len) inside holds turns
  have presented := stands.noRequest rfl
  simpa [State.recordCheck, stickyAfter_verdictOf, State.goTo, seqRequest, presented] using checked

end

end Sys2Proof.Machine
end

/-! Proofs of O22 to O32: each transition of a CAPTURE, the two waits and the timeout, as a run of the steps of its
places. -/
section
namespace Sys2Proof.Machine

/-- Settles O22: the acceptance, then one step for each request. -/
theorem transitionOne : Obligations.TransitionOne := by
  unfold Obligations.TransitionOne
  intro s w ws ts a d rest held decoded configured found
  obtain rfl := captureWord_of_decodeHost decoded
  have ⟨hdl, noDelay, _⟩ := rest
  refine ⟨fun polling turns => ?_, fun interrupt turns => ?_⟩
  · have run := runSteps_then (step_capture rest held configured found turns) <|
      runSteps_then (step_setWordCount_polling ⟨hdl, noDelay, rfl, rfl⟩ polling rfl) <|
      runSteps_one _ _ (step_enable ⟨hdl, noDelay, rfl, rfl⟩ rfl)
    simpa [goTo_assertSelect, State.loadDescriptor, countByte] using run
  · have run := runSteps_then (step_capture rest held configured found turns) <|
      runSteps_then (step_setWordCount_interrupt ⟨hdl, noDelay, rfl, rfl⟩ interrupt rfl) <|
      runSteps_then (step_setTrigger ⟨hdl, noDelay, rfl, rfl⟩ rfl) <|
      runSteps_one _ _ (step_enable ⟨hdl, noDelay, rfl, rfl⟩ rfl)
    simpa [goTo_assertSelect, State.loadDescriptor, countByte] using run

/-- Settles O23: two requests, `k` idle turns, *done*, and the entry of CS_ASSERTED. -/
theorem transitionTwo : Obligations.TransitionTwo := by
  unfold Obligations.TransitionTwo
  intro s k ts stands turns
  have ⟨hdl, noDelay, _⟩ := stands
  have run := runSteps_then (step_assertSelect (ts := .run :: (runs k ++ .delayDone :: .run :: ts)) stands
      (by simpa [runs] using turns)) <|
    runSteps_then (step_waitTicks ⟨hdl, noDelay, rfl, rfl⟩ rfl) <|
    runSteps_append (runSteps_delaying k hdl rfl rfl) <|
    runSteps_then (step_delayDone_of_turns rfl) <|
    runSteps_one _ _ (step_settle ⟨hdl, rfl, rfl, rfl⟩ rfl)
  simpa [State.goTo, seqRequest, noDelay] using run

/-- Settles O24: the sequencer's action at the entry, by the build. -/
theorem transferOpens : Obligations.TransferOpens := by
  unfold Obligations.TransferOpens
  intro s turn stands filled
  have stepped : step s = .next s.afterTurn.openTransfer := by
    rw [step_action_of_turn stands rfl (by simp) turn]
    simp only [seqAction, stands.afterTurn.seq]
  refine ⟨fun polling txrx => ?_, fun polling rxOnly => ?_, fun interrupt => ?_⟩
  · simp only [stepped, State.openTransfer, State.afterTurn_cfg, polling, txrx]
    rw [nextByte_txrx (by simpa using filled) (by simpa using txrx),
      goTo_transmit (b := if s.dHascode = true then s.dCode else s.cfg.placeholder)
        (by simp [pollingByte, txrx, txByte])]
  · simp only [stepped, State.openTransfer, State.afterTurn_cfg, polling, rxOnly]
    rw [goTo_transmit (b := s.cfg.placeholder) (by simp [pollingByte, rxOnly])]
  · simp only [stepped, State.openTransfer, State.afterTurn_cfg, interrupt]
    rfl

/-- Settles O25: the run up to the wait, and the run cut short by a delivery once TX_EMPTY is armed. -/
theorem armingClearsReadyFirst : Obligations.ArmingClearsReadyFirst := by
  unfold Obligations.ArmingClearsReadyFirst
  intro s ts stands interrupt
  have ⟨hdl, noDelay, _⟩ := stands
  refine ⟨fun turns => ?_, fun turns => ?_⟩
  · rw [← goTo_of_standsAt stands]
    exact runSteps_armedToWait hdl noDelay interrupt turns
  · exact runSteps_then (step_opening_interrupt stands interrupt turns) <|
      runSteps_then (step_enableTx ⟨hdl, noDelay, rfl, rfl⟩ rfl) <|
      runSteps_one _ _ (step_delivery hdl interrupt (.inl rfl) rfl)

/-- Settles O26: the exchange from its transmit, then the place its byte leads to. -/
theorem txrxExchange : Obligations.TxrxExchange := by
  unfold Obligations.TxrxExchange
  intro s w ts rs stands txrx more inside valid turns replies
  have ⟨hdl, noDelay, _⟩ := stands
  have run := runSteps_exchange hdl noDelay txrx more inside valid turns replies
  rw [nextByte_txrx more txrx, goTo_of_standsAt stands, nextByte_txrx_goTo (s := s.received _ _ _ _) txrx] at run
  exact run

/-- Settles O27: the fill, a word with its wait, and the final read, each with the place it leads to. -/
theorem receiveOnlyBytes : Obligations.ReceiveOnlyBytes := by
  unfold Obligations.ReceiveOnlyBytes
  intro s ts rs rxOnly inside
  refine ⟨fun stands idx long turns => ?_, fun w stands fresh more valid turns replies => ?_,
    fun b stands last turns replies => ?_⟩
  · refine runSteps_one _ _ ((step_transmit_rxOnly stands rxOnly turns).trans ?_)
    exact congrArg Host.Outcome.next (nextByte_rxOnly_polled (show s.idx < s.fLength by omega) rxOnly
      (show s.idx + 1 = s.fLength → s.cfg.finalReadPoll = true by omega))
  · have ⟨hdl, noDelay, _⟩ := stands
    have start : s.startWait .observe = s := by
      rw [State.startWait, ← fresh]
      exact goTo_of_standsAt stands
    have run := runSteps_word hdl noDelay (by omega) valid turns replies
    rw [start] at run
    obtain ⟨n, next, cleared⟩ := nextByte_rxOnly_goTo
      (s := s.received w (w.statusReads ++ [asked .tReceive w.byte]) ts rs) rxOnly more
    refine ⟨n, run.trans ?_, cleared⟩
    rw [next, List.append_assoc]
    rfl
  · refine runSteps_one _ _ ((step_receive stands (by omega) turns replies).trans ?_)
    exact congrArg Host.Outcome.next (nextByte_complete (show s.fLength ≤ s.idx + 1 by omega))

/-- Settles O28: each failed read leaves the sequencer at its wait. -/
theorem failedReadsAreRepeated : Obligations.FailedReadsAreRepeated := by
  unfold Obligations.FailedReadsAreRepeated
  exact fun s fs ts rs => runSteps_failedReads fs

/-- Settles O29: the wait ends at `ready`; the invariant says what that announces. -/
theorem readyEndsInterruptWait : Obligations.ReadyEndsInterruptWait := by
  unfold Obligations.ReadyEndsInterruptWait
  intro s h turn hdl seq
  have stands := h.standsAt_watch hdl seq
  refine ⟨fun ready => ?_, fun waiting unbounded => ?_, fun n waiting limit below => ?_⟩
  · obtain ⟨filled, disarmed⟩ := h.announced seq ready
    refine ⟨?_, disarmed, filled⟩
    rw [step_action_of_turn stands rfl (by simp) turn, seqAction_watch_ready stands.afterTurn (by simpa)]
    rfl
  · have uncounted : s.counted 1 = s.afterTurn.wcnt := by simp [State.counted, unbounded]
    rw [step_watch_failed_of_turn stands waiting turn (by simp [unbounded]), uncounted]
  · have counted : s.counted 1 = s.wcnt + 1 := by simp [State.counted, limit]
    rw [step_watch_failed_of_turn stands waiting turn (by simpa [limit] using below), counted]

/-- Settles O30: the exhausting observation in each discipline, then one step for each request. -/
theorem timeoutSequence : Obligations.TimeoutSequence := by
  unfold Obligations.TimeoutSequence
  refine ⟨fun s n b ts rs limit reached stands polling failed turns replies => ?_,
    fun s n limit reached stands interrupt waiting turn => ?_, fun s ts stands turns => ?_⟩
  · have ⟨hdl, noDelay, _⟩ := stands
    have exhausted := step_observe_timeout stands turns replies failed limit reached
    rw [State.startTimeout, polling] at exhausted
    have run := runSteps_then exhausted <|
      runSteps_then (step_toDeassertSelect ⟨hdl, noDelay, rfl, rfl⟩ rfl) <|
      runSteps_one _ _ (step_toDisable ⟨hdl, noDelay, rfl, rfl⟩ rfl)
    simpa using run
  · rw [step_action_of_turn stands rfl (by simp) turn,
      seqAction_watch_timeout stands.afterTurn (by simpa) (by simpa) (by simpa using limit) (by simpa)]
    rfl
  · have ⟨hdl, noDelay, _⟩ := stands
    have run := runSteps_then (step_toDisableTx stands turns) <|
      runSteps_then (step_toDisableRx ⟨hdl, noDelay, rfl, rfl⟩ rfl) <|
      runSteps_then (step_toDeassertSelect ⟨hdl, noDelay, rfl, rfl⟩ rfl) <|
      runSteps_one _ _ (step_toDisable ⟨hdl, noDelay, rfl, rfl⟩ rfl)
    simpa using run

/-- Settles O31: one step for each of the two requests. -/
theorem transitionFour : Obligations.TransitionFour := by
  unfold Obligations.TransitionFour
  intro s ts stands turns
  have ⟨hdl, noDelay, _⟩ := stands
  have run := runSteps_then (step_deassertSelect stands turns) <|
    runSteps_one _ _ (step_disable ⟨hdl, noDelay, rfl, rfl⟩ rfl)
  simpa [State.goTo, seqRequest] using run

/-- Settles O32: the check in VALIDATED, then the response. -/
theorem transitionFive : Obligations.TransitionFive := by
  unfold Obligations.TransitionFive
  intro s payload last ts stands filled len inside holds
  refine ⟨fun u turns => step_validate_payload stands filled len inside holds turns, fun turns => ?_⟩
  have ⟨hdl, noDelay, _⟩ := stands
  have presented := stands.noRequest rfl
  have run := runSteps_then (step_validate_payload stands filled len inside holds turns) <|
    runSteps_one _ _ (step_respond ⟨hdl, noDelay, rfl, presented⟩ rfl)
  simpa [State.endCapture, State.retire, State.goTo, seqRequest, State.respond, responseWord_verdictOf, presented]
    using run

end Sys2Proof.Machine
end

/-! Proofs of O8, O17, O18, O20 and O54: a request presented, what making it does to the block, and the history a step
leaves. -/
section
namespace Sys2Proof.Machine

/-! ### The step that makes a request -/

/-- The request fetched is run, and the context that has the processor goes on: making the request leaves the context
as it was. -/
theorem step_fetchedRequest {s : State} {r : Request} {i : Instr} {goOn : State → Result State} (turn : s.turn = .run)
    (decoded : decodeRequest r = .ok i) (fetched : fetch s.afterTurn = .request i)
    (resumes : ∀ u : State, u.hdl = s.hdl → resume u = goOn u) : step s = andThen (exec i s.afterTurn) goOn := by
  obtain ⟨u, made, port⟩ := exec_port_law i r decoded s.afterTurn
  have context : u.hdl = s.hdl := by simpa using port.hdl
  rw [step_run s turn, runTurn_request _ i fetched, made, andThen_value, andThen_value, resumes u context]

/-- Settles O8: the sequencer's request when no handler run is in progress, the handler's when one is. -/
theorem stepRunsPresentedRequest : Obligations.StepRunsPresentedRequest := by
  unfold Obligations.StepRunsPresentedRequest
  refine fun s r i turn decoded => ⟨fun idle noDelay presented => ?_, fun running presented => ?_⟩
  · have fetched : fetch s.afterTurn = .request i :=
      fetch_sequencer_request _ r i (by simpa) (by simpa) (by simpa) decoded
    exact step_fetchedRequest turn decoded fetched fun u same => resume_sequencer u (same.trans idle)
  · have fetched : fetch s.afterTurn = .request i := fetch_handler_request _ r i (by simpa) (by simpa) decoded
    exact step_fetchedRequest turn decoded fetched fun u same => resume_handler u (same.trans_ne running)

/-! ### What a request does -/

/-- Settles O17: each of the eight is `State.issue` of itself. -/
theorem requestsWithoutReply : Obligations.RequestsWithoutReply := by
  unfold Obligations.RequestsWithoutReply
  rintro s i (listed | ⟨n, rfl⟩ | ⟨n, rfl⟩ | ⟨b, rfl⟩ | ⟨src, rfl⟩)
  · simp only [List.mem_cons, List.not_mem_nil, or_false] at listed
    obtain rfl | rfl | rfl | rfl := listed <;> rfl
  all_goals rfl

/-- Past the environment's replies the reply is the next free value (log 1). -/
theorem State.issueForReply_of_noReplies {s : State} (noReplies : s.replies = []) (i : Instr) :
    s.issueForReply i = { s with
      draws := s.draws + 1
      tqRd := Config.freeReply s.draws
      trace := s.trace ++ [⟨s.context, i, some (Config.freeReply s.draws)⟩] } := by
  simp [State.issueForReply, State.reply, State.afterReply, noReplies]

/-- Settles O18: each of the four is `State.issueForReply` of itself, whose reply is listed or free. -/
theorem requestsWithReply : Obligations.RequestsWithReply := by
  unfold Obligations.RequestsWithReply
  intro s i request
  have made : exec i s = .next (s.issueForReply i) := by
    obtain listed | ⟨m, f, rfl⟩ := request
    · simp only [List.mem_cons, List.not_mem_nil, or_false] at listed
      obtain rfl | rfl | rfl := listed <;> rfl
    · rfl
  refine ⟨fun b bs replies => ?_, fun noReplies => ?_⟩
  · rw [made, State.issueForReply_of_replies replies, State.context]
  · rw [made, State.issueForReply_of_noReplies noReplies, State.context]

/-- Settles O20: the request, the turns of a sequencer whose delay is out, and *done*. -/
theorem delayHoldsSequencer : Obligations.DelayHoldsSequencer := by
  unfold Obligations.DelayHoldsSequencer
  refine ⟨fun _ _ => rfl, fun s idle delaying turn => ?_, fun s turn => step_delayDone s turn⟩
  have held : fetch s.afterTurn = .waiting := fetch_delay _ (by simpa) (by simpa)
  rw [step_run s turn, runTurn_waiting _ held]

/-! ### The history -/

/-- The environment's turns make no request (R8, R130), reset included (R181). -/
theorem trace_of_environmentTurn {s t : State} (stepped : step s = .next t) (turn : s.turn ≠ .run) :
    t.trace = s.trace := by
  cases step_cases s t stepped with
  | interrupt _ e => exact e ▸ (untouched_deliver s).trace
  | delayDone _ e => simp [e, State.delayDone]
  | present w _ e => simp [e, State.presentCommand]
  | reset _ e => simp [e, State.resetBlock]
  | command run | illegal run | sequencerRequest run | handlerRequest run | sequencerAction run | handlerAction run
  | waiting run => exact absurd run turn

/-- Settles O54: the processor's turn adds the request it makes, if it makes one; no other turn adds any. -/
theorem historyGrowsByOne : Obligations.HistoryGrowsByOne := by
  unfold Obligations.HistoryGrowsByOne
  refine fun s t stepped => ⟨?_, trace_of_environmentTurn stepped⟩
  by_cases turn : s.turn = .run
  · obtain ⟨stays, -⟩ | ⟨i, -, ⟨c, rep, grows⟩, -⟩ := (step_writes stepped (by simp [turn])).requests
    · exact .inl stays
    · exact .inr ⟨_, grows⟩
  · exact .inl (trace_of_environmentTurn stepped turn)

end Sys2Proof.Machine
end

/-! Proofs of O40 to O45: a delivery, what the status reply decides, the two services as runs, and the return. -/
section
namespace Sys2Proof.Machine

/-! ### The step that makes the handler's request -/

section
variable {s : State} {p : HdlPos} {i : Instr}

/-- The request of the handler's place is made, and the handler goes on, whoever is to move afterwards. -/
theorem step_hdlPlace (turn : s.turn = .run) (stands : s.inHandler p) (place : hdlRequest s p = some i) :
    step s = andThen (exec i s.afterTurn) hdlResume := by
  obtain ⟨r, word⟩ := requestOf_hdlRequest place
  have presented : s.hreq = some r := by rw [stands.2.2, place, Option.bind_some, word]
  exact (stepRunsPresentedRequest s r i turn (decodeRequest_requestOf word)).2 stands.running presented

/-- The request of the handler's place is made, with no other effect than `PortMade` says, and the handler goes on. -/
theorem step_hdlMade (turn : s.turn = .run) (stands : s.inHandler p) (place : hdlRequest s p = some i) :
    ∃ u, exec i s.afterTurn = .next u ∧ PortMade i s.afterTurn u ∧ step s = hdlResume u := by
  obtain ⟨r, word⟩ := requestOf_hdlRequest place
  obtain ⟨u, made, port⟩ := exec_port_law i r (decodeRequest_requestOf word) s.afterTurn
  exact ⟨u, made, port, by rw [step_hdlPlace turn stands place, made, andThen_value]⟩

theorem State.inHandler.context_afterTurn (stands : s.inHandler p) : s.afterTurn.context = .interrupt :=
  if_neg (by simpa using stands.running)

/-- A request of the handler without a reply is made. -/
theorem step_hdlCalled (turn : s.turn = .run) (stands : s.inHandler p) (place : hdlRequest s p = some i)
    (made : ∀ u, exec i u = .next (u.issue i)) :
    step s = hdlResume { s.afterTurn with trace := s.trace ++ [hCalled i] } := by
  rw [step_hdlPlace turn stands place, made, andThen_value, State.issue, stands.context_afterTurn,
    State.afterTurn_trace, hCalled]

/-- A request of the handler with a reply is made. -/
theorem step_hdlAsked {b : Byte} {bs : List Byte} (turn : s.turn = .run) (stands : s.inHandler p)
    (place : hdlRequest s p = some i) (replies : s.replies = b :: bs)
    (made : ∀ u, exec i u = .next (u.issueForReply i)) :
    step s = hdlResume { s.afterTurn with replies := bs, tqRd := b, trace := s.trace ++ [hAsked i b] } := by
  rw [step_hdlPlace turn stands place, made, andThen_value,
    State.issueForReply_of_replies (b := b) (bs := bs) (by simpa using replies), stands.context_afterTurn,
    State.afterTurn_trace, hAsked]

end

/-! ### The request words of the handler's places (R57, R160 to R163) -/

theorem hdlGoTo_idle (s : State) : s.hdlGoTo .idle = { s with hdl := .idle, hreq := none } := rfl

theorem hdlGoTo_status (s : State) :
    s.hdlGoTo .status = { s with hdl := .status, hreq := some (.transport 0x9000#16) } := rfl

theorem hdlGoTo_txTransmit (s : State) :
    s.hdlGoTo .txTransmit = { s with
      hdl := .txTransmit
      hreq := some (.transport (0x6000#16 |||
        (if s.dHascode = true then s.dCode else s.cfg.placeholder).setWidth 16)) } := rfl

theorem hdlGoTo_rxReceive (s : State) :
    s.hdlGoTo .rxReceive = { s with hdl := .rxReceive, hreq := some (.transport 0x7000#16) } := rfl

/-! ### A delivery -/

/-- The handler can take a run exactly when a source is armed in the interrupt discipline (R160). -/
theorem State.canDeliver_iff (s : State) :
    s.canDeliver = true ↔ s.cfg.discipline = .interrupt ∧ (s.armTx = true ∨ s.armRx = true) := by
  simp [State.canDeliver, and_comm]

theorem deliver_remembered {s : State} (deliverable : s.canDeliver = true) (running : s.hdl ≠ .idle) :
    s.deliver = { s with irqPending := true } := by
  simp [State.deliver, deliverable, running]

theorem deliver_ignored {s : State} (undeliverable : ¬ s.canDeliver = true) : s.deliver = s := if_neg undeliverable

/-- Settles O40: entered, remembered or ignored. -/
theorem deliveryEntersHandler : Obligations.DeliveryEntersHandler := by
  unfold Obligations.DeliveryEntersHandler
  intro s turn
  have deliverable := s.afterTurn.canDeliver_iff
  simp only [State.afterTurn_cfg, State.afterTurn_armTx, State.afterTurn_armRx] at deliverable
  rw [step_interrupt s turn, ← deliverable]
  refine ⟨fun can => ⟨fun idle => ?_, fun running => ?_⟩, fun cannot => ?_⟩
  · rw [deliver_enters can (by simpa)]
    rfl
  · rw [deliver_remembered can (by simpa)]
  · rw [deliver_ignored cannot]

/-! ### The status reply -/

/-- A status reply that does not report TX_EMPTY, or reports it unarmed, leads past the TX_EMPTY part of the run. -/
theorem hdlServe_noTransmit {u : State} (noTransmit : ¬ (u.tqRd.getLsbD 0 = true ∧ u.armTx = true)) :
    u.hdlServe = { u with hDoRx := u.tqRd.getLsbD 1 && u.armRx }.hdlAfterTx :=
  if_neg (by simpa [reported] using noTransmit)

/-- Settles O41: TX_EMPTY first, else RX_FULL from address 0. -/
theorem statusDecidesService : Obligations.StatusDecidesService := by
  unfold Obligations.StatusDecidesService
  intro s b bs turn stands replies
  rw [step_hdlAsked turn stands rfl replies fun _ => rfl]
  simp only [hdlResume, State.afterTurn_hdl, stands.hdl]
  refine ⟨fun empty armed => ?_, fun noTransmit full armed long => ?_⟩
  · simp [State.hdlServe, reported, empty, armed, hdlGoTo_txTransmit]
  · rw [hdlServe_noTransmit (by simpa using noTransmit)]
    simp [State.hdlAfterTx, State.drainNext, full, armed, long, hdlGoTo_rxReceive]

/-! ### The return -/

/-- A run that services nothing returns at its status read (R166). -/
theorem step_status_nothing {s : State} {b : Byte} {bs : List Byte} (turn : s.turn = .run)
    (stands : s.inHandler .status) (replies : s.replies = b :: bs)
    (noTransmit : ¬ (b.getLsbD 0 = true ∧ s.armTx = true)) (noDrain : ¬ (b.getLsbD 1 = true ∧ s.armRx = true)) :
    step s = .next { s.afterTurn with
      replies := bs
      tqRd := b
      hDoRx := false
      trace := s.trace ++ [hAsked .tInterruptStatus b] }.leaveHandler := by
  have notFull : (b.getLsbD 1 && s.armRx) = false := by simpa using noDrain
  rw [step_hdlAsked turn stands rfl replies fun _ => rfl]
  simp only [hdlResume, State.afterTurn_hdl, stands.hdl]
  rw [hdlServe_noTransmit (by simpa using noTransmit)]
  simp only [State.hdlAfterTx, State.afterTurn_armRx, notFull, Bool.false_eq_true, if_false]

/-- A service of TX_EMPTY with no RX_FULL to follow returns at its clear (R162). -/
theorem step_txClear_leaves {s : State} (turn : s.turn = .run) (stands : s.inHandler .txClear)
    (noDrain : s.hDoRx = false) :
    step s = .next { s.afterTurn with trace := s.trace ++ [hCalled (.tClearInterrupt .txEmpty)] }.leaveHandler := by
  rw [step_hdlCalled turn stands rfl fun _ => rfl]
  simp only [hdlResume, State.afterTurn_hdl, stands.hdl, State.hdlAfterTx, State.afterTurn_hDoRx, noDrain,
    Bool.false_eq_true, if_false]

/-- A drain sets `ready` and returns at its clear (R163). -/
theorem step_rxClear_leaves {s : State} (turn : s.turn = .run) (stands : s.inHandler .rxClear) :
    step s = .next { s.afterTurn with
      trace := s.trace ++ [hCalled (.tClearInterrupt .rxFull)]
      ready := true }.leaveHandler := by
  rw [step_hdlCalled turn stands rfl fun _ => rfl]
  simp only [hdlResume, State.afterTurn_hdl, stands.hdl]

/-- Settles O45: each of the three requests ends in `State.leaveHandler`, which begins a new run or returns. -/
theorem returnStartsRememberedRun : Obligations.ReturnStartsRememberedRun := by
  unfold Obligations.ReturnStartsRememberedRun
  intro s u turn interrupt ends
  have leaves : step s = .next u.leaveHandler ∧ u.cfg = s.cfg ∧ u.armTx = s.armTx ∧ u.armRx = s.armRx ∧
      u.irqPending = s.irqPending := by
    obtain ⟨stands, rfl⟩ | ⟨stands, noDrain, rfl⟩ | ⟨b, bs, stands, replies, noTransmit, noDrain, rfl⟩ := ends
    · exact ⟨step_rxClear_leaves turn stands, by simp⟩
    · exact ⟨step_txClear_leaves turn stands noDrain, by simp⟩
    · exact ⟨step_status_nothing turn stands replies noTransmit noDrain, by simp⟩
  obtain ⟨leaves, cfg, tx, rx, pending⟩ := leaves
  have deliverable : u.canDeliver = true ↔ s.armTx = true ∨ s.armRx = true := by
    simp [State.canDeliver_iff, cfg, interrupt, tx, rx]
  rw [leaves, ← pending]
  refine ⟨fun remembered armed => ?_, fun noneToTake => ?_⟩
  · rw [leaveHandler_again u (by simp [remembered, deliverable.2 armed])]
    rfl
  · have returns : (u.irqPending && u.canDeliver) = false := by
      rw [← Bool.not_eq_true, Bool.and_eq_true, deliverable]
      rintro ⟨remembered, armed⟩
      obtain forgotten | ⟨noTx, noRx⟩ := noneToTake
      · simp [forgotten] at remembered
      · simp [noTx, noRx] at armed
    rw [leaveHandler_returns u returns]
    rfl

/-- Settles O42: the delivery, then the status read that returns. -/
theorem nothingServiced : Obligations.NothingServiced := by
  unfold Obligations.NothingServiced
  intro s b ts bs idle noRequest noneRemembered interrupt armed noTransmit noDrain turns replies
  have run := runSteps_then (step_delivery idle interrupt armed turns) <|
    runSteps_one _ _ (step_status_nothing (s := { s with turns := .run :: ts, irqPending := false }.hdlGoTo .status)
      rfl ⟨nofun, rfl, rfl⟩ replies noTransmit noDrain)
  rw [leaveHandler_none rfl] at run
  rw [run, State.afterTurn_of_turns rfl]
  simp [hdlGoTo_status, hdlGoTo_idle, idle, noRequest, noneRemembered]

/-! ### The service of TX_EMPTY -/

/-- The service of TX_EMPTY is over and RX_FULL is to be serviced too (R160, R162). -/
theorem step_txClear_drains {s : State} {ts : List Turn} (stands : s.inHandler .txClear) (drain : s.hDoRx = true)
    (turns : s.turns = .run :: ts) :
    step s = .next { s with
      turns := ts
      hk := 0
      trace := s.trace ++ [hCalled (.tClearInterrupt .txEmpty)] }.drainNext := by
  rw [step_hCalled stands rfl turns fun _ => rfl]
  simp only [hdlResume, stands.hdl, State.hdlAfterTx, drain, if_true]

/-- Settles O43: transmit, disable and clear as a run, then the return or the first receive of a drain. -/
theorem transmitServiceRuns : Obligations.TransmitServiceRuns := by
  unfold Obligations.TransmitServiceRuns
  intro s ts stands turns
  have begun : runSteps 2 s = _ := runSteps_then (step_txTransmit stands rfl turns) <|
    runSteps_one _ _ (step_txDisable ⟨nofun, rfl, rfl⟩ rfl)
  refine ⟨fun noDrain noneRemembered => ?_, fun drain long => ?_⟩
  · have run := runSteps_append begun <|
      runSteps_one _ _ (step_txClear_returns ⟨nofun, rfl, rfl⟩ noDrain noneRemembered rfl)
    rw [run]
    simp [State.hdlGoTo, hdlRequest, handlerByte]
  · have run := runSteps_append begun <|
      runSteps_one _ _ (step_txClear_drains ⟨nofun, rfl, rfl⟩ drain rfl)
    rw [drainNext_more long, hdlGoTo_rxReceive] at run
    rw [run]
    simp [State.hdlGoTo, hdlRequest, handlerByte]

/-! ### The service of RX_FULL -/

/-- A handler that presents its next receive of a drain stands where the drain goes on. -/
theorem State.inHandler.drainNext {s : State} (stands : s.inHandler .rxReceive) (more : s.hk < s.fLength) :
    s.drainNext = s := by
  obtain ⟨-, hdl, presented⟩ := stands
  rw [drainNext_more more, State.hdlGoTo, ← presented, ← hdl]

/-- `ready` waits for the end of the drain (R163). -/
@[simp] theorem State.drainNext_ready (s : State) : s.drainNext.ready = s.ready := by
  unfold State.drainNext
  split <;> rfl

/-- Settles O44: the receives, then the disable and the clear; a run that stops earlier has not reached the clear. -/
theorem drainServiceRuns : Obligations.DrainServiceRuns := by
  unfold Obligations.DrainServiceRuns
  intro s bytes ts rs stands first nonempty len inside noneRemembered turns replies
  have long : 0 < bytes.length := List.length_pos_iff.2 nonempty
  have start : s.drainNext = s := stands.drainNext (by omega)
  have allTurns : s.turns = runs bytes.length ++ (runs 2 ++ ts) := by rw [turns, runs_add, List.append_assoc]
  have drained := runSteps_drain bytes (by omega) inside allTurns replies
  rw [start, drainNext_complete (by simp [State.drained]; omega)] at drained
  have disabled := runSteps_append drained <| runSteps_one _ _ (step_rxDisable ⟨nofun, rfl, rfl⟩ rfl)
  refine ⟨fun n before => ?_, _, Memory.holds_writeAll s.fBytes bytes, ?_⟩
  · obtain draining | rfl := Nat.lt_or_eq_of_le (Nat.le_of_lt_succ before)
    · have firstTurns : s.turns = runs (bytes.take n).length ++ (runs (bytes.length - n + 2) ++ ts) := by
        rw [turns, ← List.append_assoc, ← runs_add, List.length_take]
        congr 2; omega
      have part := runSteps_drain (bytes.take n) (s := s) (rs := bytes.drop n ++ rs) (by simp; omega) inside firstTurns
        (by rw [replies, ← List.append_assoc, List.take_append_drop])
      rw [start, List.length_take, Nat.min_eq_left (by omega)] at part
      exact ⟨_, part, State.drainNext_ready _⟩
    · exact ⟨_, disabled, rfl⟩
  · have run := runSteps_append disabled <|
      runSteps_one _ _ (step_rxClear_returns ⟨nofun, rfl, rfl⟩ noneRemembered rfl)
    rw [run]
    simp [State.drained, State.hdlGoTo, hdlRequest, first]

end Sys2Proof.Machine
end

/-! Proof of O46: a handler step does the same whatever stands in the registers it does not read, and acts on those of
them it writes. One law says both (`step_withUnread`). -/
section
namespace Sys2Proof.Machine

/-- `s` with everything the handler does not read taken from `o`: the sequencer's registers and ports (R161), `ready`
and the frame buffer. -/
def State.withUnread (s o : State) : State :=
  { s with
    fBytes := o.fBytes
    receivedCRC := o.receivedCRC
    computedCRC := o.computedCRC
    pstate := o.pstate
    idx := o.idx
    errorFlag := o.errorFlag
    ready := o.ready
    configured := o.configured
    dCid := o.dCid
    dSettle := o.dSettle
    wcnt := o.wcnt
    seq := o.seq
    sreq := o.sreq
    delayBusy := o.delayBusy
    cmds := o.cmds
    responses := o.responses }

/-- What the handler makes of the registers it does not read when it goes on from `u`: the drain stores the byte
received, and sets `ready` at its end (R163). -/
def State.afterHandler (o u : State) : State :=
  match u.hdl with
  | .rxReceive => { o with fBytes := Memory.write o.fBytes u.hk u.tqRd }
  | .rxClear => { o with ready := true }
  | _ => o

section
variable (s o : State)

theorem ite_withUnread (c : Prop) [Decidable c] (t u : State) :
    (if c then t.withUnread o else u.withUnread o) = (if c then t else u).withUnread o :=
  (apply_ite (State.withUnread · o) c t u).symm

theorem afterTurn_withUnread : (s.withUnread o).afterTurn = s.afterTurn.withUnread o := by
  cases turns : s.turns <;> simp [State.afterTurn, State.withUnread, turns]

theorem issueForReply_withUnread (i : Instr) :
    (s.withUnread o).issueForReply i = (s.issueForReply i).withUnread o := by
  cases replies : s.replies <;>
    simp [State.issueForReply, State.afterReply, State.reply, State.withUnread, State.context, replies]

theorem leaveHandler_withUnread : (s.withUnread o).leaveHandler = s.leaveHandler.withUnread o := by
  unfold State.leaveHandler
  rw [← ite_withUnread]
  rfl

theorem drainNext_withUnread : (s.withUnread o).drainNext = s.drainNext.withUnread o := by
  unfold State.drainNext
  rw [← ite_withUnread]
  rfl

theorem hdlAfterTx_withUnread : (s.withUnread o).hdlAfterTx = s.hdlAfterTx.withUnread o := by
  refine Eq.trans ?_ (ite_withUnread o _ _ _)
  rw [← drainNext_withUnread, ← leaveHandler_withUnread]
  rfl

theorem hdlServe_withUnread : (s.withUnread o).hdlServe = s.hdlServe.withUnread o := by
  refine Eq.trans ?_ (ite_withUnread o _ _ _)
  rw [← hdlAfterTx_withUnread]
  rfl

/-- The store of a drain: the buffer written to is `o`'s. -/
theorem hdlStore_withUnread :
    hdlStore (s.withUnread o) =
      onNext (·.withUnread { o with fBytes := Memory.write o.fBytes s.hk s.tqRd }) (hdlStore s) := by
  have written (v : State) (inside : v.hk < v.cfg.frameCap) : hdlStore v =
      .next { v with fBytes := Memory.write v.fBytes v.hk v.tqRd, hk := v.hk + 1 }.drainNext := by
    rw [hdlStore, memWrite, if_pos inside, andThen_value]
  have refused (v : State) (outside : ¬ v.hk < v.cfg.frameCap) : hdlStore v = .refused .frameAddressOutOfRange := by
    rw [hdlStore, memWrite, if_neg outside, andThen]
  by_cases inside : s.hk < s.cfg.frameCap
  · rw [written s inside, written (s.withUnread o) inside, onNext_value, ← drainNext_withUnread]
    rfl
  · rw [refused s inside, refused (s.withUnread o) inside]
    rfl

/-- What the handler does when its request is complete. -/
theorem hdlResume_withUnread :
    hdlResume (s.withUnread o) = onNext (·.withUnread (o.afterHandler s)) (hdlResume s) := by
  have same : (s.withUnread o).hdl = s.hdl := rfl
  cases place : s.hdl <;> simp only [hdlResume, State.afterHandler, same, place, onNext_value]
  case status => rw [hdlServe_withUnread]
  case txClear => rw [hdlAfterTx_withUnread]
  case rxReceive => exact hdlStore_withUnread s o
  case rxClear =>
    exact congrArg Host.Outcome.next (leaveHandler_withUnread { s with ready := true } { o with ready := true })
  all_goals rfl

theorem hdlRequest_withUnread (p : HdlPos) : hdlRequest (s.withUnread o) p = hdlRequest s p := by cases p <;> rfl

/-- Making a request of the handler. -/
theorem exec_withUnread {v : State} {p : HdlPos} {i : Instr} (place : hdlRequest v p = some i) :
    exec i (s.withUnread o) = onNext (·.withUnread o) (exec i s) := by
  cases p <;> simp only [hdlRequest, reduceCtorEq, Option.some.injEq] at place <;> subst place
  case status | rxReceive => exact congrArg Host.Outcome.next (issueForReply_withUnread s o _)
  all_goals rfl

end

/-! ### The step -/

section
variable {s : State}

/-- The handler stands at a place of its run, at which a request stands (R160 to R163). -/
theorem exists_hdlRequest (running : s.hdl ≠ .idle) : ∃ i, hdlRequest s s.hdl = some i := by
  cases place : s.hdl
  case idle => exact absurd place running
  all_goals exact ⟨_, rfl⟩

/-- A step of the handler does the same whatever the registers it does not read hold, and acts on those it writes. -/
theorem step_withUnread (turn : s.turn = .run) (stands : s.inHandler s.hdl) :
    ∃ u, ∀ o, step (s.withUnread o) = onNext (·.withUnread (o.afterHandler u)) (step s) := by
  obtain ⟨i, place⟩ := exists_hdlRequest stands.running
  obtain ⟨u, made, -, resumes⟩ := step_hdlMade turn stands place
  refine ⟨u, fun o => ?_⟩
  have same := hdlRequest_withUnread s o s.hdl
  have standsToo : (s.withUnread o).inHandler s.hdl := ⟨stands.1, rfl, by rw [same]; exact stands.2.2⟩
  rw [resumes, step_hdlPlace (s := s.withUnread o) turn standsToo (same.trans place), afterTurn_withUnread,
    exec_withUnread _ _ place, made, onNext_value, andThen_value, hdlResume_withUnread]

/-- A state `v` that agrees with `s` on all the handler reads takes the same step, in every view (`F` of the one, `G` of
the other) that agrees on what becomes of the registers it does not read. -/
theorem onNext_step_of_agree {u v : State} (F G : State → State)
    (steps : ∀ o, step (s.withUnread o) = onNext (·.withUnread (o.afterHandler u)) (step s))
    (agree : s.withUnread v = v)
    (same : ∀ t : State, F (t.withUnread (v.afterHandler u)) = G (t.withUnread (s.afterHandler u))) :
    onNext F (step v) = onNext G (step s) := by
  have writes : step s = _ := steps s
  have other : step v = _ := (congrArg step agree).symm.trans (steps v)
  rw [writes, other]
  cases step s with
  | next t => exact congrArg Host.Outcome.next (same t)
  | fault e => rfl
  | refused e => rfl

theorem onNext_id (r : Result State) : onNext id r = r := by cases r <;> rfl

/-- The handler issues its five operations only (R161). -/
theorem hdlRequest_ops {p : HdlPos} {i : Instr} (place : hdlRequest s p = some i) :
    i = .tInterruptStatus ∨ (∃ b, i = .tTransmit b) ∨ i = .tReceive ∨ (∃ src, i = .tDisableInterrupt src) ∨
      ∃ src, i = .tClearInterrupt src := by
  cases p <;> simp only [hdlRequest, reduceCtorEq, Option.some.injEq] at place <;> subst place <;> simp

end

/-- Settles O46: the step is the same whatever stands in the registers the handler does not read; what it does write
is what making a request and going on from it can write. -/
theorem handlerTouchesOnlyItsOwn : Obligations.HandlerTouchesOnlyItsOwn := by
  unfold Obligations.HandlerTouchesOnlyItsOwn
  intro s running presented turn
  have stands : s.inHandler s.hdl := ⟨running, rfl, presented⟩
  obtain ⟨u, steps⟩ := step_withUnread turn stands
  refine ⟨fun p i w cid rx cx tk e c db q r cs rsp => ?_, fun x => ?_, fun m => ?_, fun t stepped => ?_⟩
  · rw [← onNext_id (step _)]
    exact onNext_step_of_agree _ _ steps rfl fun t => by unfold State.afterHandler; split <;> rfl
  · exact onNext_step_of_agree _ _ steps rfl fun t => by unfold State.afterHandler; split <;> rfl
  · exact onNext_step_of_agree _ _ steps rfl fun t => by unfold State.afterHandler; split <;> rfl
  · obtain ⟨i, place⟩ := exists_hdlRequest running
    obtain ⟨u, -, made, resumes⟩ := step_hdlMade turn stands place
    have done := hdlResume_law u t (resumes.symm.trans stepped)
    obtain ⟨rep, trace⟩ := made.trace
    refine ⟨by simp [done.fLength, made.fLength], by simp [done.dHascode, made.dHascode],
      by simp [done.dCode, made.dCode], by simp [done.cfg, made.cfg], i, rep, ?_, hdlRequest_ops place⟩
    simp [done.trace, trace, stands.context_afterTurn]

end Sys2Proof.Machine
end

/-! Proof of O53: the step that adds to the history makes the request of its context's place. -/
section
namespace Sys2Proof.Machine

/-- What a step adds to the history is the request presented, under the name of the context that has the processor. -/
theorem presents_of_issued {s t : State} {e : PortEvent} (stepped : step s = .next t)
    (issued : t.trace = s.trace ++ [e]) : e.ctx = s.context ∧ Presents s e.op := by
  have grows : t.trace ≠ s.trace := by simp [issued]
  have event {u : State} {i : Instr} (made : PortMade i s.afterTurn u) (kept : t.trace = u.trace) :
      e.ctx = s.context ∧ e.op = i := by
    obtain ⟨rep, trace⟩ := made.trace
    have same : e = ⟨s.afterTurn.context, i, rep⟩ := by simpa [issued, trace] using kept
    simp [same, State.context]
  cases step_cases s t stepped with
  | interrupt turn | delayDone turn | present _ turn | reset turn =>
    exact absurd (trace_of_environmentTurn stepped (by simp [turn])) grows
  | command _ i _ host _ _ _ answered =>
    exact absurd (by simpa using (exec_host_law i host _ t answered).trace) grows
  | illegal _ _ _ _ _ _ answered => exact absurd (by simp [answered, State.rejectCommand]) grows
  | sequencerAction _ _ _ _ flight acted =>
    exact absurd (by simpa using (seqAction_law _ t (by simpa using flight) acted).trace) grows
  | handlerAction _ _ _ moved => exact absurd (by simp [moved]) grows
  | waiting _ _ _ _ waits => exact absurd (by simp [waits]) grows
  | sequencerRequest _ i r u idle _ presented decoded _ made resumed =>
    obtain ⟨ctx, rfl⟩ := event made (seqResume_law u t resumed).trace
    exact ⟨ctx, r, decoded, .inl ⟨idle, presented⟩⟩
  | handlerRequest _ i r u running presented decoded _ made resumed =>
    obtain ⟨ctx, rfl⟩ := event made (hdlResume_law u t resumed).trace
    exact ⟨ctx, r, decoded, .inr ⟨running, presented⟩⟩

/-- The sequencer reads the status of a transfer at a place of polling alone (R105, R139). -/
theorem polls_of_transferComplete {s : State} {p : SeqPos} (place : seqRequest s p = some .tTransferComplete) :
    p.polls = true := by
  cases p <;> simp only [seqRequest, reduceCtorEq, Option.some.injEq] at place
  case observe => rfl

/-- The handler reads no status of a transfer (R161). -/
theorem hdlRequest_ne_transferComplete (s : State) (p : HdlPos) : hdlRequest s p ≠ some .tTransferComplete := by
  cases p <;> simp [hdlRequest]

/-- Outside the places of the interrupt discipline the sequencer makes none of the four interrupt operations (R157). -/
theorem seqRequest_noInterruptOp {s : State} {p : SeqPos} {i : Instr} (place : seqRequest s p = some i)
    (polling : p.interruptOnly = false) :
    i ≠ .tInterruptStatus ∧
      ∀ src, i ≠ .tEnableInterrupt src ∧ i ≠ .tDisableInterrupt src ∧ i ≠ .tClearInterrupt src := by
  cases p <;> simp only [seqRequest, reduceCtorEq, Option.some.injEq] at place
  case enableTx | enableRx | toDisableTx | toDisableRx => cases polling
  all_goals
    subst place
    simp

/-- Settles O53: in polling the invariant keeps the handler idle and the sequencer off the interrupt discipline's
places; in interrupt it keeps the sequencer off polling's. -/
theorem disciplinesIssueTheirOwn : Obligations.DisciplinesIssueTheirOwn := by
  unfold Obligations.DisciplinesIssueTheirOwn
  intro s t e h stepped issued
  obtain ⟨ctx, presents⟩ := presents_of_issued stepped issued
  refine ⟨fun polling => ?_, fun interrupt status => ?_⟩
  · obtain ⟨-, -, -, idle, -⟩ := h.quiet polling
    obtain ⟨-, -, -, staysIdle, -⟩ := (stepKeepsInvariant s t h stepped).quiet (by
      rw [(registerWriters s t stepped).1, polling])
    refine ⟨staysIdle, by rw [ctx, State.context, if_pos idle], ?_⟩
    obtain ⟨-, place⟩ | ⟨running, -⟩ := h.presents presents
    · refine seqRequest_noInterruptOp place (Bool.eq_false_iff.2 fun irq => ?_)
      simpa [polling] using h.irqPlaces irq
    · exact absurd idle running
  · rw [status] at presents
    obtain ⟨-, place⟩ | ⟨-, place⟩ := h.presents presents
    · simpa [interrupt] using h.pollPlaces (polls_of_transferComplete place)
    · exact hdlRequest_ne_transferComplete s s.hdl place

end Sys2Proof.Machine
end

/-! Proof of O56: reset writes the values of R26 over any state, and leaves no source armed for a delivery to serve. -/
section
namespace Sys2Proof.Machine

theorem atRest_resetBlock (s : State) : s.resetBlock.atRest := ⟨rfl, rfl, rfl, rfl, rfl⟩

/-- With no source armed a delivery is a turn without effect, in either discipline (U17). -/
theorem step_deliveryUnarmed {s : State} (tx : s.armTx = false) (rx : s.armRx = false) (turn : s.turn = .interrupt) :
    step s = .next s.afterTurn := by
  have unarmed : ¬ s.afterTurn.canDeliver = true := by simp [State.canDeliver_iff, tx, rx]
  rw [step_interrupt s turn, deliver_ignored unarmed]

/-- Settles O56: each register as `State.resetBlock` writes it; both arm bits are among them, so a delivery is ignored. -/
theorem resetFromAnyState : Obligations.ResetFromAnyState := by
  unfold Obligations.ResetFromAnyState
  intro s turn
  have responses : s.afterTurn.resetBlock.responses = s.responses := s.afterTurn_responses
  have trace : s.afterTurn.resetBlock.trace = s.trace := s.afterTurn_trace
  have build : s.afterTurn.resetBlock.cfg = s.cfg := s.afterTurn_cfg
  exact ⟨s.afterTurn.resetBlock, step_reset s turn, rfl, rfl, rfl, rfl, rfl, rfl, rfl, rfl, rfl,
    atRest_resetBlock _, rfl, responses, trace, build, step_deliveryUnarmed rfl rfl⟩

end Sys2Proof.Machine
end
